-- ==== Sys2Proof/Word.lean ====
section
/-! DEFINITION. The word types of the CHIP-8 execute engine: an 8-bit byte (the registers, R21), a 16-bit word
(the opcode, I, pc and the return addresses, R20, R71) and the narrower fields of an opcode (R71). Every value is
unsigned (R12). -/

namespace Sys2Proof

/-- 8 bits: a general register, a timer, a byte of memory, the immediate NN (R12, R20, R71). -/
abbrev Byte := BitVec 8

/-- 16 bits: an opcode, the index register I, pc, a return address (R20, R71). -/
abbrev Word := BitVec 16

/-- 4 bits: the fields X, Y and N, and the latched key index (R36, R71). -/
abbrev Nibble := BitVec 4

/-- 12 bits: the address field NNN (R71). -/
abbrev Addr12 := BitVec 12

end Sys2Proof
end

