-- ==== Sys2Proof/Config.lean ====
section
/-! DEFINITION. The implementation parameters of R9, the configuration a run is made with (VARIANT and FONT, R2,
R10, R41) and the free values of the model: the random byte (R171, U8) and the keypad vector (R35, U17) of a step whose
inputs no host supplies. -/

namespace Sys2Proof

namespace Config

/-- `MEM_SIZE` (R9): addresses 0x000..0xFFF. -/
@[simp, reducible] def memSize : Nat := 4096

/-- The highest address, 0xFFF (R50). -/
@[simp, reducible] def topAddress : Nat := 0xFFF

/-- `PROG_BASE` (R9): where the ROM is copied to and the reset pc. -/
@[simp, reducible] def progBase : Nat := 0x200

/-- The number of font bytes: 16 glyphs of 5 bytes at `FONT_BASE` = 0 (R9, R10). -/
@[simp, reducible] def fontSize : Nat := 80

/-- `STACK_DEPTH` (R9, R29). -/
@[simp, reducible] def stackDepth : Nat := 12

/-- Display width `W` (R9).
UNVERIFIED (log 3): 64 for both variants is the spec's own decision D4. Unsafe for a machine whose SCHIP display differs. -/
@[simp, reducible] def W : Nat := 64

/-- Display height `H` (R9).
UNVERIFIED (log 3): 32 for both variants is the spec's own decision D4. Unsafe as for `W`. -/
@[simp, reducible] def H : Nat := 32

/-- `MAX_ROM` = 4096 - 0x200 (R9, R291). -/
@[simp, reducible] def maxRom : Nat := 3584

/-- The random byte of the k-th step request whose inputs no host supplies: a FREE VALUE, no law constrains it
(R171, D22, U8; log 5). Safe: a claim holds for every draw. -/
opaque freeByte : Nat → Byte

/-- The keypad vector of the k-th step request whose inputs no host supplies: a FREE VALUE (R35, D30, U17; log 4).
Safe: a claim holds for every vector. -/
opaque freeKeys : Nat → Word

end Config

/-- `VARIANT` (R2, R41): the source's CHIP-8, and its "SUPER-CHIP/XO-CHIP", which the spec calls SCHIP. -/
inductive Variant where
  | chip8
  | schip
  deriving DecidableEq, Repr

/-- What a run is made with and no step changes: `VARIANT` (R41) and the bytes of `FONT` (R10). -/
structure Config where
  variant : Variant
  font : Vector Byte 80
  deriving DecidableEq, Repr

end Sys2Proof
end

