-- ==== Sys2Proof/Syntax.lean ====
section
/-! DEFINITION. The instructions: one constructor per row of spec/opcode_table.json, named by the row's hex pattern
(R89), its arguments the fields the row names (R71). -/

namespace Sys2Proof

/-- A decoded instruction (R75-R88). X, Y, N, NN and NNN are the fields of R71. -/
inductive Instr where
  /-- 00E0, clear display (R100). The argument is the nibble of bits 11:8, which R76 leaves unexamined: it is kept so
  that no bit of a word is lost, and no meaning reads it (log 13). -/
  | op00E0 (unexamined : Nibble)
  /-- 00EE, return from subroutine (R120). The argument is the unexamined nibble, as for 00E0 (R76, log 13). -/
  | op00EE (unexamined : Nibble)
  /-- 1NNN, jump (R121). -/
  | op1NNN (nnn : Addr12)
  /-- 2NNN, call subroutine (R122). -/
  | op2NNN (nnn : Addr12)
  /-- 3XNN, skip if equal to immediate (R140). -/
  | op3XNN (x : Nibble) (nn : Byte)
  /-- 4XNN, skip if not equal to immediate (R141). -/
  | op4XNN (x : Nibble) (nn : Byte)
  /-- 5XY0, skip if registers equal (R142). -/
  | op5XY0 (x y : Nibble)
  /-- 6XNN, load immediate (R160). -/
  | op6XNN (x : Nibble) (nn : Byte)
  /-- 7XNN, add immediate (R161). -/
  | op7XNN (x : Nibble) (nn : Byte)
  /-- 8XY0, copy register (R162). -/
  | op8XY0 (x y : Nibble)
  /-- 8XY1, bitwise OR (R163). -/
  | op8XY1 (x y : Nibble)
  /-- 8XY2, bitwise AND (R164). -/
  | op8XY2 (x y : Nibble)
  /-- 8XY3, bitwise XOR (R165). -/
  | op8XY3 (x y : Nibble)
  /-- 8XY4, add with carry out (R166). -/
  | op8XY4 (x y : Nibble)
  /-- 8XY5, subtract V[Y] from V[X] (R167). -/
  | op8XY5 (x y : Nibble)
  /-- 8XY6, shift right by 1 (R168). -/
  | op8XY6 (x y : Nibble)
  /-- 8XY7, subtract V[X] from V[Y] (R169). -/
  | op8XY7 (x y : Nibble)
  /-- 8XYE, shift left by 1 (R170). -/
  | op8XYE (x y : Nibble)
  /-- 9XY0, skip if registers not equal (R143). -/
  | op9XY0 (x y : Nibble)
  /-- ANNN, load index (R200). -/
  | opANNN (nnn : Addr12)
  /-- BNNN, jump indexed by V0 (R123). -/
  | opBNNN (nnn : Addr12)
  /-- CXNN, random byte masked (R171). -/
  | opCXNN (x : Nibble) (nn : Byte)
  /-- DXYN, draw sprite (R101). -/
  | opDXYN (x y n : Nibble)
  /-- EX9E, skip if key pressed (R144). -/
  | opEX9E (x : Nibble)
  /-- EXA1, skip if key not pressed (R145). -/
  | opEXA1 (x : Nibble)
  /-- FX07, read delay timer (R230). -/
  | opFX07 (x : Nibble)
  /-- FX0A, wait for a key press and release (R233). -/
  | opFX0A (x : Nibble)
  /-- FX15, set delay timer (R231). -/
  | opFX15 (x : Nibble)
  /-- FX18, set sound timer (R232). -/
  | opFX18 (x : Nibble)
  /-- FX1E, add register to index (R201). -/
  | opFX1E (x : Nibble)
  /-- FX29, point index at font glyph (R202). -/
  | opFX29 (x : Nibble)
  /-- FX33, store binary-coded decimal (R203). -/
  | opFX33 (x : Nibble)
  /-- FX55, store registers V0..VX (R204). -/
  | opFX55 (x : Nibble)
  /-- FX65, load registers V0..VX (R205). -/
  | opFX65 (x : Nibble)
  /-- The default no-op (R86), with the word it was decoded from; `WellFormed` says which words these are (R87). -/
  | nop (word : Word)
  deriving DecidableEq, Repr

end Sys2Proof
end

