-- ==== Sys2Proof/WellFormed.lean ====
section
/-! DEFINITION. Which instruction terms stand for a word. Every field of R71 admits every value of its width (R21, R84),
so the widths in the types say it all, but for the no-op, whose word must lie in the no-op space of R87. -/

namespace Sys2Proof

/-- The no-op space as R87's own table gives it, row by row: the high nibble and the condition on NN or N.
It is written from that table, not from the decoder's dispatch (R75). -/
def inNoOpSpace (w : Word) : Bool :=
  let nn : Byte := w.setWidth 8
  let n : Nibble := w.setWidth 4
  match (w >>> 12).toNat with
  | 0x0 => !([0xE0, 0xEE] : List Byte).contains nn
  | 0x5 => n != 0
  | 0x8 => ([0x8, 0x9, 0xA, 0xB, 0xC, 0xD, 0xF] : List Nibble).contains n
  | 0x9 => n != 0
  | 0xE => !([0x9E, 0xA1] : List Byte).contains nn
  | 0xF => !([0x07, 0x0A, 0x15, 0x18, 0x1E, 0x29, 0x33, 0x55, 0x65] : List Byte).contains nn
  | _ => false

/-- The check: a no-op holds a word of the no-op space; every other constructor is well formed at every operand. -/
def Instr.wellFormed : Instr → Bool
  | .nop w => inNoOpSpace w
  | .op00E0 _ => true
  | .op00EE _ => true
  | .op1NNN _ => true
  | .op2NNN _ => true
  | .op3XNN _ _ => true
  | .op4XNN _ _ => true
  | .op5XY0 _ _ => true
  | .op6XNN _ _ => true
  | .op7XNN _ _ => true
  | .op8XY0 _ _ => true
  | .op8XY1 _ _ => true
  | .op8XY2 _ _ => true
  | .op8XY3 _ _ => true
  | .op8XY4 _ _ => true
  | .op8XY5 _ _ => true
  | .op8XY6 _ _ => true
  | .op8XY7 _ _ => true
  | .op8XYE _ _ => true
  | .op9XY0 _ _ => true
  | .opANNN _ => true
  | .opBNNN _ => true
  | .opCXNN _ _ => true
  | .opDXYN _ _ _ => true
  | .opEX9E _ => true
  | .opEXA1 _ => true
  | .opFX07 _ => true
  | .opFX0A _ => true
  | .opFX15 _ => true
  | .opFX18 _ => true
  | .opFX1E _ => true
  | .opFX29 _ => true
  | .opFX33 _ => true
  | .opFX55 _ => true
  | .opFX65 _ => true

end Sys2Proof
end

