-- ==== Sys2Proof/Decode.lean ====
section
/-! DEFINITION. Fields (R71), dispatch (R75), decoding of a big-endian byte pair (R54, R73), the encoder, and the
opcode table's mask and match rows. Decoding is total on words (R19, R88); the one rejection is of a byte
list too short to hold a word. -/

namespace Sys2Proof

/-! ## Fields (R71): each is extracted from every word, used or not, by the shift and mask of R71's table. -/

/-- `hi`: bits 15:12, the dispatch key. -/
def fieldHi (w : Word) : Nibble := (w >>> 12).setWidth 4
/-- `X`: bits 11:8. -/
def fieldX (w : Word) : Nibble := (w >>> 8).setWidth 4
/-- `Y`: bits 7:4. -/
def fieldY (w : Word) : Nibble := (w >>> 4).setWidth 4
/-- `N`: bits 3:0. -/
def fieldN (w : Word) : Nibble := w.setWidth 4
/-- `NN`: bits 7:0. -/
def fieldNN (w : Word) : Byte := w.setWidth 8
/-- `NNN`: bits 11:0. -/
def fieldNNN (w : Word) : Addr12 := w.setWidth 12

/-! ## Dispatch (R75): first on the high nibble, then on N or NN in six families. -/

/-- Family 0x0, keyed on NN alone (R76). -/
def dispatch0 (w : Word) : Instr :=
  if fieldNN w = 0xE0 then .op00E0 (fieldX w)
  else if fieldNN w = 0xEE then .op00EE (fieldX w)
  else .nop w

/-- Family 0x8, keyed on N (R78). -/
def dispatch8 (w : Word) : Instr :=
  match (fieldN w).toNat with
  | 0x0 => .op8XY0 (fieldX w) (fieldY w)
  | 0x1 => .op8XY1 (fieldX w) (fieldY w)
  | 0x2 => .op8XY2 (fieldX w) (fieldY w)
  | 0x3 => .op8XY3 (fieldX w) (fieldY w)
  | 0x4 => .op8XY4 (fieldX w) (fieldY w)
  | 0x5 => .op8XY5 (fieldX w) (fieldY w)
  | 0x6 => .op8XY6 (fieldX w) (fieldY w)
  | 0x7 => .op8XY7 (fieldX w) (fieldY w)
  | 0xE => .op8XYE (fieldX w) (fieldY w)
  | _ => .nop w

/-- Family 0xE, keyed on NN (R80). -/
def dispatchE (w : Word) : Instr :=
  if fieldNN w = 0x9E then .opEX9E (fieldX w)
  else if fieldNN w = 0xA1 then .opEXA1 (fieldX w)
  else .nop w

/-- Family 0xF, keyed on NN (R81). -/
def dispatchF (w : Word) : Instr :=
  if fieldNN w = 0x07 then .opFX07 (fieldX w)
  else if fieldNN w = 0x0A then .opFX0A (fieldX w)
  else if fieldNN w = 0x15 then .opFX15 (fieldX w)
  else if fieldNN w = 0x18 then .opFX18 (fieldX w)
  else if fieldNN w = 0x1E then .opFX1E (fieldX w)
  else if fieldNN w = 0x29 then .opFX29 (fieldX w)
  else if fieldNN w = 0x33 then .opFX33 (fieldX w)
  else if fieldNN w = 0x55 then .opFX55 (fieldX w)
  else if fieldNN w = 0x65 then .opFX65 (fieldX w)
  else .nop w

/-- `Dispatch(op)` (R75): every word has exactly one instruction. -/
def decodeWord (w : Word) : Instr :=
  match (fieldHi w).toNat with
  | 0x0 => dispatch0 w
  | 0x1 => .op1NNN (fieldNNN w)
  | 0x2 => .op2NNN (fieldNNN w)
  | 0x3 => .op3XNN (fieldX w) (fieldNN w)
  | 0x4 => .op4XNN (fieldX w) (fieldNN w)
  | 0x5 => if fieldN w = 0 then .op5XY0 (fieldX w) (fieldY w) else .nop w
  | 0x6 => .op6XNN (fieldX w) (fieldNN w)
  | 0x7 => .op7XNN (fieldX w) (fieldNN w)
  | 0x8 => dispatch8 w
  | 0x9 => if fieldN w = 0 then .op9XY0 (fieldX w) (fieldY w) else .nop w
  | 0xA => .opANNN (fieldNNN w)
  | 0xB => .opBNNN (fieldNNN w)
  | 0xC => .opCXNN (fieldX w) (fieldNN w)
  | 0xD => .opDXYN (fieldX w) (fieldY w) (fieldN w)
  | 0xE => dispatchE w
  | _ => dispatchF w

/-! ## Bytes (R54, R73). -/

/-- Big-endian: `hi * 256 + lo`, the byte at the lower address being bits 15:8 (R54, R73). -/
def wordOfBytes (hi lo : Byte) : Word := BitVec.ofNat 16 (hi.toNat * 0x100 + lo.toNat)

/-- The byte at the lower address of a stored word (R54). -/
def highByte (w : Word) : Byte := (w >>> 8).setWidth 8
/-- The byte at the higher address of a stored word (R54). -/
def lowByte (w : Word) : Byte := w.setWidth 8

/-- Why bytes are not an instruction: there are fewer than the two a word takes (R70). No word is illegal (R88). -/
inductive DecodeError where
  | truncated
  deriving DecidableEq, Repr

/-- Decode the word at the head of a byte list, and give the rest of the list. -/
def decode : List Byte → Except DecodeError (Instr × List Byte)
  | hi :: lo :: rest => .ok (decodeWord (wordOfBytes hi lo), rest)
  | [_] => .error .truncated
  | [] => .error .truncated

/-! ## The encoder, written from the `encoding` column of spec/opcode_table.json. -/

/-- hi, X, Y, N side by side (the layout of R71). -/
def packXYN (hi x y n : Nibble) : Word :=
  BitVec.ofNat 16 (hi.toNat * 0x1000 + x.toNat * 0x100 + y.toNat * 0x10 + n.toNat)
/-- hi, X, NN side by side. -/
def packXNN (hi x : Nibble) (nn : Byte) : Word := BitVec.ofNat 16 (hi.toNat * 0x1000 + x.toNat * 0x100 + nn.toNat)
/-- hi, NNN side by side. -/
def packNNN (hi : Nibble) (nnn : Addr12) : Word := BitVec.ofNat 16 (hi.toNat * 0x1000 + nnn.toNat)

/-- The word of an instruction. -/
def encode : Instr → Word
  | .op00E0 u => packXNN 0x0 u 0xE0
  | .op00EE u => packXNN 0x0 u 0xEE
  | .op1NNN nnn => packNNN 0x1 nnn
  | .op2NNN nnn => packNNN 0x2 nnn
  | .op3XNN x nn => packXNN 0x3 x nn
  | .op4XNN x nn => packXNN 0x4 x nn
  | .op5XY0 x y => packXYN 0x5 x y 0x0
  | .op6XNN x nn => packXNN 0x6 x nn
  | .op7XNN x nn => packXNN 0x7 x nn
  | .op8XY0 x y => packXYN 0x8 x y 0x0
  | .op8XY1 x y => packXYN 0x8 x y 0x1
  | .op8XY2 x y => packXYN 0x8 x y 0x2
  | .op8XY3 x y => packXYN 0x8 x y 0x3
  | .op8XY4 x y => packXYN 0x8 x y 0x4
  | .op8XY5 x y => packXYN 0x8 x y 0x5
  | .op8XY6 x y => packXYN 0x8 x y 0x6
  | .op8XY7 x y => packXYN 0x8 x y 0x7
  | .op8XYE x y => packXYN 0x8 x y 0xE
  | .op9XY0 x y => packXYN 0x9 x y 0x0
  | .opANNN nnn => packNNN 0xA nnn
  | .opBNNN nnn => packNNN 0xB nnn
  | .opCXNN x nn => packXNN 0xC x nn
  | .opDXYN x y n => packXYN 0xD x y n
  | .opEX9E x => packXNN 0xE x 0x9E
  | .opEXA1 x => packXNN 0xE x 0xA1
  | .opFX07 x => packXNN 0xF x 0x07
  | .opFX0A x => packXNN 0xF x 0x0A
  | .opFX15 x => packXNN 0xF x 0x15
  | .opFX18 x => packXNN 0xF x 0x18
  | .opFX1E x => packXNN 0xF x 0x1E
  | .opFX29 x => packXNN 0xF x 0x29
  | .opFX33 x => packXNN 0xF x 0x33
  | .opFX55 x => packXNN 0xF x 0x55
  | .opFX65 x => packXNN 0xF x 0x65
  | .nop w => w

/-- The bytes of an instruction as memory holds them, lower address first (R54). -/
def encodeBytes (i : Instr) : List Byte := [highByte (encode i), lowByte (encode i)]

/-! ## The opcode table's mask and match columns. -/

/-- One of the 34 instruction rows of spec/opcode_table.json: its name, `mask` and `match`. -/
structure OpcodeRow where
  mnemonic : String
  mask : Word
  pattern : Word
  deriving DecidableEq, Repr

/-- A word belongs to a row when the bits the mask keeps are the row's. -/
def OpcodeRow.admits (r : OpcodeRow) (w : Word) : Bool := w &&& r.mask == r.pattern

/-- The rows of spec/opcode_table.json, in its order, less the default no-op (whose row matches what no other row does). -/
def opcodeRows : List OpcodeRow :=
  [⟨"00E0", 0xF0FF, 0x00E0⟩, ⟨"00EE", 0xF0FF, 0x00EE⟩, ⟨"1NNN", 0xF000, 0x1000⟩, ⟨"2NNN", 0xF000, 0x2000⟩,
   ⟨"3XNN", 0xF000, 0x3000⟩, ⟨"4XNN", 0xF000, 0x4000⟩, ⟨"5XY0", 0xF00F, 0x5000⟩, ⟨"6XNN", 0xF000, 0x6000⟩,
   ⟨"7XNN", 0xF000, 0x7000⟩] ++
  [⟨"8XY0", 0xF00F, 0x8000⟩, ⟨"8XY1", 0xF00F, 0x8001⟩, ⟨"8XY2", 0xF00F, 0x8002⟩, ⟨"8XY3", 0xF00F, 0x8003⟩,
   ⟨"8XY4", 0xF00F, 0x8004⟩, ⟨"8XY5", 0xF00F, 0x8005⟩, ⟨"8XY6", 0xF00F, 0x8006⟩, ⟨"8XY7", 0xF00F, 0x8007⟩,
   ⟨"8XYE", 0xF00F, 0x800E⟩, ⟨"9XY0", 0xF00F, 0x9000⟩] ++
  [⟨"ANNN", 0xF000, 0xA000⟩, ⟨"BNNN", 0xF000, 0xB000⟩, ⟨"CXNN", 0xF000, 0xC000⟩, ⟨"DXYN", 0xF000, 0xD000⟩,
   ⟨"EX9E", 0xF0FF, 0xE09E⟩, ⟨"EXA1", 0xF0FF, 0xE0A1⟩] ++
  [⟨"FX07", 0xF0FF, 0xF007⟩, ⟨"FX0A", 0xF0FF, 0xF00A⟩, ⟨"FX15", 0xF0FF, 0xF015⟩, ⟨"FX18", 0xF0FF, 0xF018⟩,
   ⟨"FX1E", 0xF0FF, 0xF01E⟩, ⟨"FX29", 0xF0FF, 0xF029⟩, ⟨"FX33", 0xF0FF, 0xF033⟩, ⟨"FX55", 0xF0FF, 0xF055⟩,
   ⟨"FX65", 0xF0FF, 0xF065⟩]

/-- The name of an instruction: its row's mnemonic (R89). -/
def Instr.mnemonic : Instr → String
  | .op00E0 _ => "00E0"
  | .op00EE _ => "00EE"
  | .op1NNN _ => "1NNN"
  | .op2NNN _ => "2NNN"
  | .op3XNN _ _ => "3XNN"
  | .op4XNN _ _ => "4XNN"
  | .op5XY0 _ _ => "5XY0"
  | .op6XNN _ _ => "6XNN"
  | .op7XNN _ _ => "7XNN"
  | .op8XY0 _ _ => "8XY0"
  | .op8XY1 _ _ => "8XY1"
  | .op8XY2 _ _ => "8XY2"
  | .op8XY3 _ _ => "8XY3"
  | .op8XY4 _ _ => "8XY4"
  | .op8XY5 _ _ => "8XY5"
  | .op8XY6 _ _ => "8XY6"
  | .op8XY7 _ _ => "8XY7"
  | .op8XYE _ _ => "8XYE"
  | .op9XY0 _ _ => "9XY0"
  | .opANNN _ => "ANNN"
  | .opBNNN _ => "BNNN"
  | .opCXNN _ _ => "CXNN"
  | .opDXYN _ _ _ => "DXYN"
  | .opEX9E _ => "EX9E"
  | .opEXA1 _ => "EXA1"
  | .opFX07 _ => "FX07"
  | .opFX0A _ => "FX0A"
  | .opFX15 _ => "FX15"
  | .opFX18 _ => "FX18"
  | .opFX1E _ => "FX1E"
  | .opFX29 _ => "FX29"
  | .opFX33 _ => "FX33"
  | .opFX55 _ => "FX55"
  | .opFX65 _ => "FX65"
  | .nop _ => "NOP"

/-- The host's reading of an opcode-table word: `w` holds the row's `nbits` bits, every bit above them 0. The one word
is laid out big-endian (R54) and given to the decoder. -/
def decodeTableWord (nbits w : Nat) : Option Instr :=
  let word : Word := BitVec.ofNat 16 (w % 2 ^ min nbits 16)
  match decode [highByte word, lowByte word] with
  | .ok (i, _) => some i
  | .error _ => none

end Sys2Proof
end

