-- ==== Sys2Proof/Machine/Font.lean ====
section
/-! DEFINITION. The default value of `FONT` (R10): the conventional CHIP-8 hexadecimal font.
PRESUMED (log 2): the spec marks these bytes "from general knowledge, not in source". Unsafe for a claim about glyph
pixels that names State.reset; a claim over every state or every configuration does not rest on them. -/

namespace Sys2Proof.Machine

/-- Glyphs 0 to F, 5 bytes each, top row first, bit 7 leftmost (the table of R10). -/
def defaultFontBytes : List Byte :=
  ([0xF0, 0x90, 0x90, 0x90, 0xF0] ++ [0x20, 0x60, 0x20, 0x20, 0x70] ++
   [0xF0, 0x10, 0xF0, 0x80, 0xF0] ++ [0xF0, 0x10, 0xF0, 0x10, 0xF0]) ++
  ([0x90, 0x90, 0xF0, 0x10, 0x10] ++ [0xF0, 0x80, 0xF0, 0x10, 0xF0] ++
   [0xF0, 0x80, 0xF0, 0x90, 0xF0] ++ [0xF0, 0x10, 0x20, 0x40, 0x40]) ++
  ([0xF0, 0x90, 0xF0, 0x90, 0xF0] ++ [0xF0, 0x90, 0xF0, 0x10, 0xF0] ++
   [0xF0, 0x90, 0xF0, 0x90, 0x90] ++ [0xE0, 0x90, 0xE0, 0x90, 0xE0]) ++
  ([0xF0, 0x80, 0x80, 0x80, 0xF0] ++ [0xE0, 0x90, 0x90, 0x90, 0xE0] ++
   [0xF0, 0x80, 0xF0, 0x80, 0xF0] ++ [0xF0, 0x80, 0xF0, 0x80, 0x80])

/-- The default font as the 80 bytes of the configuration (R9, R10). -/
def defaultFont : Vector Byte 80 := ⟨defaultFontBytes.toArray, by decide⟩

end Sys2Proof.Machine
end

