-- ==== Sys2Proof/Machine/State.lean ====
section
/-! DEFINITION. The state of the CHIP-8 execute engine as plain data (R20, R44), the host's requests (R275), the reasons
a step can stop, and the state after reset. -/

namespace Sys2Proof.Machine

/-- `run_state` (R38, R259). -/
inductive RunState where
  | running
  | paused
  | quit
  deriving DecidableEq, Repr

/-- `fault_cause` (R39, R251); `FaultCause.code` gives the codes. -/
inductive FaultCause where
  | none
  | pcOutOfBounds
  | stackOverflow
  | stackUnderflow
  | memOutOfBounds
  | keyIndexOutOfRange
  deriving DecidableEq, Repr

/-- The 4096-byte memory (R20, R43, R50): the (address, byte) pairs that differ from what an unlisted address reads as,
addresses strictly rising (`Memory.wf`; log 16). -/
abbrev Memory := List Host.Cell

/-- `Disp` (R34): H rows of W pixels, row 0 first; pixel (x, y) is bit x of row y, linear index y*W + x (log 16). -/
abbrev Display := Vector (BitVec 64) 32

/-- A saved state as the host holds it (R46, R296; log 12): the elements of R20, the bounded ones (`SP`, `kwKey`, the
pixels in row-major order) not yet checked, since a restored state may break R46. -/
structure Snapshot where
  mem : Memory
  V : Vector Byte 16
  I : Word
  pc : Word
  stack : Vector Word 12
  SP : Nat
  DT : Byte
  ST : Byte
  disp : List Bool
  kwActive : Bool
  kwKey : Nat
  drawNeeded : Bool
  runState : RunState
  faultCause : FaultCause
  shouldPlaySound : Bool
  deriving DecidableEq, Repr

/-- A request of the host (the request ports of R275). -/
inductive Request where
  /-- `step`, with the keypad vector and the random byte this step samples (R72). -/
  | step (key : Word) (rnd : Byte)
  /-- `tick` (R262). -/
  | tick
  /-- `host_run_state` (R259, R261). -/
  | hostRunState (wanted : RunState)
  /-- `host_clear_draw` (R269). -/
  | hostClearDraw
  /-- `host_load(rom)` (R290-R294). -/
  | hostLoad (rom : List Byte)
  /-- `host_snapshot_write` (R296). -/
  | hostSnapshotWrite (saved : Snapshot)
  deriving DecidableEq, Repr

/-- The machine (R20), its per-step output `step_drew` (R37), its configuration (R41), the input ports the step
samples (R35, R171), and the model's own two fields. -/
structure State where
  /-- `Mem[0..4095]` (R43). -/
  mem : Memory
  /-- `V[0..15]` (R21); VF is `V[0xF]` (R22). -/
  V : Vector Byte 16
  /-- `I` (R28). -/
  I : Word
  /-- `pc` (R24). -/
  pc : Word
  /-- `Stack[0..11]` (R29). -/
  stack : Vector Word 12
  /-- `SP`, the entries in use, 0 to 12 (R30, R31). -/
  SP : Fin 13
  /-- `DT` (R32). -/
  DT : Byte
  /-- `ST` (R33). -/
  ST : Byte
  /-- `Disp` (R34). -/
  disp : Display
  /-- `kw_active` (R36). -/
  kwActive : Bool
  /-- `kw_key` (R36). -/
  kwKey : Nibble
  /-- `draw_needed` (R37). -/
  drawNeeded : Bool
  /-- `step_drew`, the output that holds its value until the next step request (R37, R44; log 17). -/
  stepDrew : Bool
  /-- `run_state` (R38). -/
  runState : RunState
  /-- `fault_cause` (R39). -/
  faultCause : FaultCause
  /-- `should_play_sound` (R40). -/
  shouldPlaySound : Bool
  /-- `VARIANT` and `FONT` (R10, R41): no step writes them (log 1, log 2). -/
  cfg : Config
  /-- `Key[0..15]` as the current step samples it, bit k = `Key[k]` (R35, R275; log 4). -/
  key : Word
  /-- The random byte of the current step (R171; log 5). -/
  rnd : Byte
  /-- The model's own: the host's queued requests, oldest first (log 6). -/
  inbox : List Request
  /-- The model's own: how many steps have drawn free inputs (log 4, log 5). -/
  draws : Nat
  deriving DecidableEq, Repr

/-- Why a step could end in a fault outcome: never. The spec's five faults (R251) have a defined state after them
(R252), so the model takes them as NEXT states, through `State.raise` (log 7). -/
inductive Fault
  deriving DecidableEq, Repr

/-- Why a step has no transition. -/
inductive Refusal where
  /-- Raised by `exec` for an instruction with no meaning yet. Safe. No arm of this model raises it. -/
  | notModelled (mnemonic : String)
  /-- Raised by `serve` on `hostLoad` with more than 3584 bytes: the load is rejected and no state exists (R291; log 11). Safe. -/
  | romTooLarge
  /-- Raised by `serve` on `hostSnapshotWrite` of a state that breaks R46 (R46, R296, U18; log 12). Safe. -/
  | snapshotInvalid
  /-- Raised by `serve` on a `hostRunState` that would leave Quit (log 14), or a `hostSnapshotWrite` that would leave Quit or
  change `fault_cause` in it (log 12): Quit is final until a new reset (R254, R259, D18). Safe. -/
  | quitIsFinal
  deriving DecidableEq, Repr

/-- The state after reset (R44, R290) with an empty ROM (L = 0, R291).
DESIGN CHOICE (logs 1, 4, 5, 6): the variant is CHIP8, no key is pressed, `rnd` is 0, nothing is queued or drawn; unsafe for
a claim that names State.reset and rests on one of them.
PRESUMED (log 2): the font bytes, here and in what an unlisted address reads as. -/
def State.reset : State where
  mem := []
  V := Vector.replicate 16 0
  I := 0
  pc := 0x200
  stack := Vector.replicate 12 0
  SP := 0
  DT := 0
  ST := 0
  disp := Vector.replicate 32 0
  kwActive := false
  kwKey := 0
  drawNeeded := false
  stepDrew := false
  runState := .running
  faultCause := .none
  shouldPlaySound := false
  cfg := { variant := .chip8, font := defaultFont }
  key := 0
  rnd := 0
  inbox := []
  draws := 0

end Sys2Proof.Machine
end

