-- ==== Sys2Proof/Machine/Memory.lean ====
section
/-! DEFINITION. The operations over memory: one byte read, one byte written (R14), and runs of bytes built from
them. Addresses are exact natural numbers, so no sum wraps (R55); the bounds rule is applied before any of these is
called (`State.outOfBounds`). -/

namespace Sys2Proof.Machine

namespace Memory

/-- What an address that is not listed reads as: the reset contents (R44), the default FONT below 0x050 and 0 elsewhere
(log 2). A machine with another FONT lists the bytes that differ (`State.loaded`). -/
def unlisted (a : Nat) : Byte := defaultFontBytes.getD a 0

/-- `MemRead(a, 1)` (R14). -/
def read : Memory → Nat → Byte
  | [], a => unlisted a
  | (k, v) :: m, a => if a = k then v else read m a

/-- The listing of one byte: nothing where the byte is what an unlisted address reads as. -/
def cell (a : Nat) (v : Byte) : Memory := if v = unlisted a then [] else [(a, v)]

/-- `MemWrite(a, 1, v)` (R14), keeping the canonical form. -/
def write : Memory → Nat → Byte → Memory
  | [], a, v => cell a v
  | (k, w) :: m, a, v =>
    if a < k then cell a v ++ (k, w) :: m
    else if a = k then cell a v ++ m
    else (k, w) :: write m a v

/-- Write consecutive bytes from address `a` up, lowest first. -/
def storeBytes : Memory → Nat → List Byte → Memory
  | m, _, [] => m
  | m, a, v :: vs => storeBytes (write m a v) (a + 1) vs

/-- Canonical from address `lo` up: addresses rise strictly, lie in the 4096 bytes of R50, and no entry equals what an
unlisted address reads as. -/
def wfFrom : Nat → Memory → Bool
  | _, [] => true
  | lo, (k, v) :: m => decide (lo ≤ k) && decide (k < Config.memSize) && decide (v ≠ unlisted k) && wfFrom (k + 1) m

/-- The canonical form. -/
def wf (m : Memory) : Bool := wfFrom 0 m

end Memory

end Sys2Proof.Machine
end

