-- ==== Sys2Proof/Machine/Ops.lean ====
section
/-! DEFINITION. The named operations over registers and control state, taking a fault (R252) among them. Every read
and write of State by an instruction goes through one of these. There is no return from a fault (R254), so none is
defined. -/

namespace Sys2Proof.Machine

/-- The code the host reads in `fault_cause` (R39, R251). -/
def FaultCause.code : FaultCause → BitVec 3
  | .none => 0
  | .pcOutOfBounds => 1
  | .stackOverflow => 2
  | .stackUnderflow => 3
  | .memOutOfBounds => 4
  | .keyIndexOutOfRange => 5

namespace State

/-! ## General registers (R13, R21) -/

/-- `V[x]`. -/
def readV (x : Nibble) (s : State) : Byte := s.V[x.toNat]'x.isLt

/-- `V[x] <- v`. No register is hardwired (R21). -/
def writeV (x : Nibble) (v : Byte) (s : State) : State := { s with V := s.V.set x.toNat v x.isLt }

/-- `VF` (R16, R22). -/
def readVF (s : State) : Byte := s.readV 0xF

/-- `VF <- v`. -/
def writeVF (v : Byte) (s : State) : State := s.writeV 0xF v

/-- Copy `Mem[base .. base+count-1]` into `V[0 .. count-1]`, in rising order (R205). -/
def loadRegs (m : Memory) (base : Nat) : Nat → Vector Byte 16 → Vector Byte 16
  | 0, V => V
  | k + 1, V => (loadRegs m base k V).setIfInBounds k (m.read (base + k))

/-- All sixteen registers at once (FX65). -/
def setV (V : Vector Byte 16) (s : State) : State := { s with V := V }

/-! ## Index register, program counter, timers -/

/-- `I <- v`. -/
def setI (v : Word) (s : State) : State := { s with I := v }

/-- `pc <- v`. -/
def setPc (v : Word) (s : State) : State := { s with pc := v }

/-- `pc <- trunc16(pc + 2)`: the fetch's advance (R73) and a skip (R18, R146). -/
def advance (s : State) : State := s.setPc (s.pc + 2)

/-- A skip when the condition holds (R140-R146). -/
def skipIf (c : Bool) (s : State) : State := if c then s.advance else s

/-- `pc <- pc - 2`: FX0A re-executes itself (R233). -/
def rewind (s : State) : State := s.setPc (s.pc - 2)

/-- `DT <- v`. -/
def setDT (v : Byte) (s : State) : State := { s with DT := v }

/-- `ST <- v`. -/
def setST (v : Byte) (s : State) : State := { s with ST := v }

/-! ## Return stack (R29-R31) -/

/-- Push: `Stack[SP] <- w`, then `SP <- SP + 1`; `none` when the stack holds 12 entries (R30, R31). -/
def push (w : Word) (s : State) : Option State :=
  if h : s.SP.val < 12 then
    some { s with stack := s.stack.set s.SP.val w h, SP := ⟨s.SP.val + 1, by omega⟩ }
  else none

/-- Pop: `SP <- SP - 1`, then `Stack[SP]`, whose entry keeps its value; `none` when the stack is empty (R30, R31). -/
def pop (s : State) : Option (Word × State) :=
  if h : 0 < s.SP.val then
    some (s.stack[s.SP.val - 1]'(by omega), { s with SP := ⟨s.SP.val - 1, by omega⟩ })
  else none

/-! ## Memory through I (R55) -/

/-- Replace the memory. -/
def setMem (m : Memory) (s : State) : State := { s with mem := m }

/-- The bounds rule (R55): some byte of `I .. I+count-1`, summed without wrap-around, lies above 0xFFF. An access of no
byte is never out of bounds (R101, N = 0). -/
def outOfBounds (count : Nat) (s : State) : Bool :=
  decide (0 < count ∧ Config.topAddress < s.I.toNat + (count - 1))

/-- Store consecutive bytes from `Mem[I]` up. -/
def storeAtI (bytes : List Byte) (s : State) : State := s.setMem (s.mem.storeBytes s.I.toNat bytes)

/-! ## Key-wait latch and display outputs -/

/-- `kw_key <- k; kw_active <- 1` (R233). -/
def latchKey (k : Nibble) (s : State) : State := { s with kwActive := true, kwKey := k }

/-- `kw_active <- 0`; `kw_key` keeps its value (R233). -/
def releaseLatch (s : State) : State := { s with kwActive := false }

/-- Replace the display and mark it: `draw_needed <- 1; step_drew <- 1` (R37, R100, R101). -/
def present (d : Display) (s : State) : State := { s with disp := d, drawNeeded := true, stepDrew := true }

/-- `step_drew <- 0` (R72, R260). -/
def clearStepDrew (s : State) : State := { s with stepDrew := false }

/-! ## Inputs -/

/-- Sample the keypad vector and the random byte of a step request (R35, R72). -/
def sample (key : Word) (rnd : Byte) (s : State) : State := { s with key := key, rnd := rnd }

/-- Draw the inputs of a step request whose inputs no host supplies: both are free values (log 4, log 5). -/
def drawFree (s : State) : State :=
  { s with key := Config.freeKeys s.draws, rnd := Config.freeByte s.draws, draws := s.draws + 1 }

/-- Replace the queue of requests. -/
def setInbox (l : List Request) (s : State) : State := { s with inbox := l }

/-! ## Taking a fault -/

/-- `raise Fault(c)` (R15, R252): nothing changes but `fault_cause`, `run_state` and `step_drew`; pc keeps the fetch's
advance. -/
def raise (c : FaultCause) (s : State) : State := { s with faultCause := c, runState := .quit, stepDrew := false }

end State

/-- An instruction whose check comes before its first write (R15): the fault when the check fails, else the effect.
Either way the machine goes on to a next state (log 7). -/
def raiseIf (bad : Bool) (c : FaultCause) (s effect : State) : Host.Outcome State Fault Refusal :=
  .next (if bad then s.raise c else effect)

end Sys2Proof.Machine
end

