-- ==== Sys2Proof/Machine/Flags.lean ====
section
/-! DEFINITION. Every flag computation: what the instructions of R22's table write to VF, and the variant's flag
reset. -/

namespace Sys2Proof.Machine

/-- `bool2bit` (R12). -/
def bool2bit (c : Bool) : Byte := if c then 1 else 0

/-- Carry out of bit 7: the exact sum exceeds 255 (R166). -/
def carryOut (a b : Byte) : Byte := bool2bit (decide (255 < a.toNat + b.toNat))

/-- No borrow in `a - b`: `b <= a` (R167, R169). -/
def noBorrow (a b : Byte) : Byte := bool2bit (decide (b.toNat ≤ a.toNat))

/-- The bit a right shift moves out, `v[0]` (R168). -/
def shiftedOutRight (v : Byte) : Byte := bool2bit (v.getLsbD 0)

/-- The bit a left shift moves out, `v[7]` (R170). -/
def shiftedOutLeft (v : Byte) : Byte := bool2bit (v.getLsbD 7)

/-- `if VARIANT == CHIP8: VF <- 0` (R163-R165). -/
def State.resetFlagQuirk (s : State) : State :=
  match s.cfg.variant with
  | .chip8 => s.writeVF 0
  | .schip => s

end Sys2Proof.Machine
end

