-- ==== Sys2Proof/Machine/Operands.lean ====
section
/-! DEFINITION. Every operand form: immediates (R83), registers (R84), the variant's shift source (R168, R170), the key
index (R144), the sprite anchor and its visible rows (R101), and the decimal digits (R203). -/

namespace Sys2Proof.Machine

/-- `NNN` zero-extended to an address (R83). -/
def addrOf (nnn : Addr12) : Word := nnn.setWidth 16

/-- `zext_16` of an 8-bit value (R12). -/
def zext16 (v : Byte) : Word := v.setWidth 16

/-- `zext` of the 4-bit latched key index into a register (R233). -/
def zextKey (k : Nibble) : Byte := k.setWidth 8

/-- The decimal digits of a byte, hundreds first (R203). -/
def bcdDigits (v : Byte) : List Byte := [v / 100, (v / 10) % 10, v % 10]

/-- The smallest pressed key index, if some key is pressed (R233, D15; log 10). -/
def lowestPressed (key : Word) : Option Nibble :=
  ((List.range 16).find? fun k => key.getLsbD k).map (BitVec.ofNat 4)

namespace State

/-- The value 8XY6 and 8XYE shift: `V[Y]` on CHIP8, `V[X]` on SCHIP (R168, R170). -/
def shiftSource (x y : Nibble) (s : State) : Byte :=
  match s.cfg.variant with
  | .chip8 => s.readV y
  | .schip => s.readV x

/-- EX9E and EXA1 name a key above 15 (R144, R145). -/
def keyIndexBad (x : Nibble) (s : State) : Bool := decide (15 < (s.readV x).toNat)

/-- `Key[V[x]]` as this step sampled it (R35, R144). -/
def keyPressed (x : Nibble) (s : State) : Bool := s.key.getLsbD (s.readV x).toNat

/-- `Key[kw_key]` (R233). -/
def latchedKeyHeld (s : State) : Bool := s.key.getLsbD s.kwKey.toNat

/-- The anchor column `V[X] mod W` (R101). -/
def anchorX (x : Nibble) (s : State) : Nat := (s.readV x).toNat % Config.W

/-- The anchor row `V[Y] mod H` (R101). -/
def anchorY (y : Nibble) (s : State) : Nat := (s.readV y).toNat % Config.H

/-- `rows <- min(N, H - y0)`: the rows the bottom edge leaves (R101, D9; log 9). -/
def visibleRows (y n : Nibble) (s : State) : Nat := min n.toNat (Config.H - s.anchorY y)

/-- `V[0] .. V[X]`, the registers FX55 stores (R84, R204). -/
def regsUpTo (x : Nibble) (s : State) : List Byte := s.V.toList.take (x.toNat + 1)

/-- The increment of I by FX55 and FX65: `trunc16(I + X + 1)` on CHIP8, none on SCHIP (R204, R205). -/
def bumpI (x : Nibble) (s : State) : State :=
  match s.cfg.variant with
  | .chip8 => s.setI (s.I + x.setWidth 16 + 1)
  | .schip => s

end State

end Sys2Proof.Machine
end

