-- ==== Sys2Proof/Machine/Alu.lean ====
section
/-! DEFINITION. Register loads and ALU: 6XNN, 7XNN, 8XY0-8XY7, 8XYE, CXNN (43_alu.md). The effects of an instruction run
in the order of its rule, each reading the registers as the earlier ones left them (R13).
UNVERIFIED (log 8): that order is the spec's own decisions D6 and D7; it shows only when X or Y is F. Unsafe there. -/

namespace Sys2Proof.Machine

/-- 6XNN, load immediate (R160). -/
def exec6XNN (x : Nibble) (nn : Byte) (s : State) : Host.Outcome State Fault Refusal :=
  .next (s.writeV x nn)

/-- 7XNN, add immediate, wrapping; VF is not a carry (R161). -/
def exec7XNN (x : Nibble) (nn : Byte) (s : State) : Host.Outcome State Fault Refusal :=
  .next (s.writeV x (s.readV x + nn))

/-- 8XY0, copy register (R162). -/
def exec8XY0 (x y : Nibble) (s : State) : Host.Outcome State Fault Refusal :=
  .next (s.writeV x (s.readV y))

/-- 8XY1, bitwise OR, then the variant's flag reset (R163). -/
def exec8XY1 (x y : Nibble) (s : State) : Host.Outcome State Fault Refusal :=
  .next (s.writeV x (s.readV x ||| s.readV y)).resetFlagQuirk

/-- 8XY2, bitwise AND, then the variant's flag reset (R164). -/
def exec8XY2 (x y : Nibble) (s : State) : Host.Outcome State Fault Refusal :=
  .next (s.writeV x (s.readV x &&& s.readV y)).resetFlagQuirk

/-- 8XY3, bitwise XOR, then the variant's flag reset (R165). -/
def exec8XY3 (x y : Nibble) (s : State) : Host.Outcome State Fault Refusal :=
  .next (s.writeV x (s.readV x ^^^ s.readV y)).resetFlagQuirk

/-- 8XY4, add; the carry is written last (R166). -/
def exec8XY4 (x y : Nibble) (s : State) : Host.Outcome State Fault Refusal :=
  .next ((s.writeV x (s.readV x + s.readV y)).writeVF (carryOut (s.readV x) (s.readV y)))

/-- `VF <- t`, then `V[X] <- trunc8(V[a] - V[b])`, which reads the registers after the VF write (R167, R169). -/
def State.subtractInto (x a b : Nibble) (s : State) : State :=
  let t := s.writeVF (noBorrow (s.readV a) (s.readV b))
  t.writeV x (t.readV a - t.readV b)

/-- 8XY5, subtract V[Y] from V[X] (R167). -/
def exec8XY5 (x y : Nibble) (s : State) : Host.Outcome State Fault Refusal :=
  .next (s.subtractInto x x y)

/-- 8XY7, subtract V[X] from V[Y] (R169). -/
def exec8XY7 (x y : Nibble) (s : State) : Host.Outcome State Fault Refusal :=
  .next (s.subtractInto x y x)

/-- 8XY6, shift right by 1; the source is sampled once and VF is written last (R168). -/
def exec8XY6 (x y : Nibble) (s : State) : Host.Outcome State Fault Refusal :=
  .next ((s.writeV x (s.shiftSource x y >>> 1)).writeVF (shiftedOutRight (s.shiftSource x y)))

/-- 8XYE, shift left by 1; the source is sampled once and VF is written last (R170). -/
def exec8XYE (x y : Nibble) (s : State) : Host.Outcome State Fault Refusal :=
  .next ((s.writeV x (s.shiftSource x y <<< 1)).writeVF (shiftedOutLeft (s.shiftSource x y)))

/-- CXNN, random byte masked; the byte is the step's input (R171; log 5). -/
def execCXNN (x : Nibble) (nn : Byte) (s : State) : Host.Outcome State Fault Refusal :=
  .next (s.writeV x (s.rnd &&& nn))

end Sys2Proof.Machine
end

