-- ==== Sys2Proof/Machine/ControlFlow.lean ====
section
/-! DEFINITION. Control transfer: 00EE, 1NNN, 2NNN, BNNN (41_control_flow.md), and the default no-op (R86). `pc` holds
the instruction's address plus 2 when a meaning starts (R24). -/

namespace Sys2Proof.Machine

/-- 00EE, return from subroutine (R120). The unexamined nibble is not read (R76). -/
def exec00EE (_unexamined : Nibble) (s : State) : Host.Outcome State Fault Refusal :=
  match s.pop with
  | none => .next (s.raise .stackUnderflow)
  | some (target, t) => .next (t.setPc target)

/-- 1NNN, jump (R121). -/
def exec1NNN (nnn : Addr12) (s : State) : Host.Outcome State Fault Refusal :=
  .next (s.setPc (addrOf nnn))

/-- 2NNN, call subroutine (R122): the address after the 2NNN is pushed. -/
def exec2NNN (nnn : Addr12) (s : State) : Host.Outcome State Fault Refusal :=
  match s.push s.pc with
  | none => .next (s.raise .stackOverflow)
  | some t => .next (t.setPc (addrOf nnn))

/-- BNNN, jump indexed by V0 (R123): the sum is at most 0x10FE, so 16 bits hold it exactly. -/
def execBNNN (nnn : Addr12) (s : State) : Host.Outcome State Fault Refusal :=
  .next (s.setPc (zext16 (s.readV 0) + addrOf nnn))

/-- The default no-op (R86): no effect; pc stays at the instruction's address plus 2. -/
def execNop (_word : Word) (s : State) : Host.Outcome State Fault Refusal :=
  .next s

end Sys2Proof.Machine
end

