-- ==== Sys2Proof/Machine/Sprite.lean ====
section
/-! DEFINITION. The XOR drawer and its collision detector (R101, R103), as loops over rows and columns in the order of
R101's pseudocode. -/

namespace Sys2Proof.Machine

namespace Display

/-- `Disp[x, y]` (R13, R34). -/
def pixel (d : Display) (x y : Nat) : Bool := (d[y]?.getD 0).getLsbD x

/-- `Disp[x, y] <- 1 - Disp[x, y]` (R101). -/
def flip (d : Display) (x y : Nat) : Display := d.setIfInBounds y (d[y]?.getD 0 ^^^ BitVec.twoPow 64 x)

/-- Every pixel off (R100). -/
def blank : Display := Vector.replicate 32 0

end Display

/-- What the drawer carries from pixel to pixel: the display, and whether a set bit has met an on pixel. -/
structure Canvas where
  disp : Display
  collided : Bool
  deriving DecidableEq, Repr

/-- A set bit at (x, y): note the collision, then flip the pixel (R101). -/
def Canvas.plot (x y : Nat) (k : Canvas) : Canvas :=
  { disp := k.disp.flip x y, collided := k.collided || k.disp.pixel x y }

/-- Columns `c`, `c+1`, ... of one sprite row, `fuel` of them, stopping at the right edge (R101: bit 7 is leftmost; a
column at or beyond W ends the row). -/
def drawColumns (b : Byte) (x0 y : Nat) : (fuel c : Nat) → Canvas → Canvas
  | 0, _, k => k
  | fuel + 1, c, k =>
    if Config.W ≤ x0 + c then k
    else drawColumns b x0 y fuel (c + 1) (if b.getLsbD (7 - c) then k.plot (x0 + c) y else k)

/-- One sprite row: its 8 columns from the left. -/
def drawRow (b : Byte) (x0 y : Nat) (k : Canvas) : Canvas := drawColumns b x0 y 8 0 k

/-- Rows `r`, `r+1`, ... of the sprite, `fuel` of them, each read from `Mem[base + r]` (R101). -/
def drawRows (m : Memory) (base x0 y0 : Nat) : (fuel r : Nat) → Canvas → Canvas
  | 0, _, k => k
  | fuel + 1, r, k => drawRows m base x0 y0 fuel (r + 1) (drawRow (m.read (base + r)) x0 (y0 + r) k)

end Sys2Proof.Machine
end

