-- ==== Sys2Proof/Machine/Display.lean ====
section
/-! DEFINITION. Display instructions: 00E0 and DXYN (40_display.md). -/

namespace Sys2Proof.Machine

/-- 00E0, clear display (R100). The unexamined nibble is not read (R76). -/
def exec00E0 (_unexamined : Nibble) (s : State) : Host.Outcome State Fault Refusal :=
  .next (s.present Display.blank)

/-- The canvas DXYN leaves: `rows` sprite rows drawn at the anchor, from no collision (R101). -/
def State.drawn (x y n : Nibble) (s : State) : Canvas :=
  drawRows s.mem s.I.toNat (s.anchorX x) (s.anchorY y) (s.visibleRows y n) 0 { disp := s.disp, collided := false }

/-- DXYN, draw sprite (R101). The anchor is sampled before VF is reset (D8; log 9); a row the bottom edge skips is neither
read nor checked (D9; log 9). -/
def execDXYN (x y n : Nibble) (s : State) : Host.Outcome State Fault Refusal :=
  raiseIf (s.outOfBounds (s.visibleRows y n)) .memOutOfBounds s
    ((s.writeVF (bool2bit (s.drawn x y n).collided)).present (s.drawn x y n).disp)

end Sys2Proof.Machine
end

