-- ==== Sys2Proof/Machine/IndexMemory.lean ====
section
/-! DEFINITION. Index register and memory transfers: ANNN, FX1E, FX29, FX33, FX55, FX65 (44_index_and_memory.md). Every
memory instruction checks its whole range before its first write (R55). -/

namespace Sys2Proof.Machine

/-- ANNN, load index (R200). -/
def execANNN (nnn : Addr12) (s : State) : Host.Outcome State Fault Refusal :=
  .next (s.setI (addrOf nnn))

/-- FX1E, add register to index, modulo 2^16; VF is not written (R201). -/
def execFX1E (x : Nibble) (s : State) : Host.Outcome State Fault Refusal :=
  .next (s.setI (s.I + zext16 (s.readV x)))

/-- FX29, point index at font glyph; the whole byte is multiplied (R202). -/
def execFX29 (x : Nibble) (s : State) : Host.Outcome State Fault Refusal :=
  .next (s.setI (zext16 (s.readV x) * 5))

/-- FX33, store binary-coded decimal at I, I+1, I+2 (R203). -/
def execFX33 (x : Nibble) (s : State) : Host.Outcome State Fault Refusal :=
  raiseIf (s.outOfBounds 3) .memOutOfBounds s (s.storeAtI (bcdDigits (s.readV x)))

/-- FX55, store registers V0..VX, then the variant's increment of I (R204). -/
def execFX55 (x : Nibble) (s : State) : Host.Outcome State Fault Refusal :=
  raiseIf (s.outOfBounds (x.toNat + 1)) .memOutOfBounds s ((s.storeAtI (s.regsUpTo x)).bumpI x)

/-- FX65, load registers V0..VX, then the variant's increment of I (R205). -/
def execFX65 (x : Nibble) (s : State) : Host.Outcome State Fault Refusal :=
  raiseIf (s.outOfBounds (x.toNat + 1)) .memOutOfBounds s
    ((s.setV (State.loadRegs s.mem s.I.toNat (x.toNat + 1) s.V)).bumpI x)

end Sys2Proof.Machine
end

