-- ==== Sys2Proof/Machine/Skips.lean ====
section
/-! DEFINITION. Conditional skips: 3XNN, 4XNN, 5XY0, 9XY0, EX9E, EXA1 (42_conditional_skips.md). -/

namespace Sys2Proof.Machine

/-- 3XNN, skip if equal to immediate (R140). -/
def exec3XNN (x : Nibble) (nn : Byte) (s : State) : Host.Outcome State Fault Refusal :=
  .next (s.skipIf (s.readV x == nn))

/-- 4XNN, skip if not equal to immediate (R141). -/
def exec4XNN (x : Nibble) (nn : Byte) (s : State) : Host.Outcome State Fault Refusal :=
  .next (s.skipIf (s.readV x != nn))

/-- 5XY0, skip if registers equal (R142). -/
def exec5XY0 (x y : Nibble) (s : State) : Host.Outcome State Fault Refusal :=
  .next (s.skipIf (s.readV x == s.readV y))

/-- 9XY0, skip if registers not equal (R143). -/
def exec9XY0 (x y : Nibble) (s : State) : Host.Outcome State Fault Refusal :=
  .next (s.skipIf (s.readV x != s.readV y))

/-- EX9E, skip if key pressed (R144); an index above 15 is a fault, never masked (U4). -/
def execEX9E (x : Nibble) (s : State) : Host.Outcome State Fault Refusal :=
  raiseIf (s.keyIndexBad x) .keyIndexOutOfRange s (s.skipIf (s.keyPressed x))

/-- EXA1, skip if key not pressed (R145). -/
def execEXA1 (x : Nibble) (s : State) : Host.Outcome State Fault Refusal :=
  raiseIf (s.keyIndexBad x) .keyIndexOutOfRange s (s.skipIf (!s.keyPressed x))

end Sys2Proof.Machine
end

