-- ==== Sys2Proof/Machine/TimersKeys.lean ====
section
/-! DEFINITION. Timer access and key wait: FX07, FX15, FX18, FX0A (45_timers_and_keys.md). -/

namespace Sys2Proof.Machine

/-- FX07, read delay timer (R230). -/
def execFX07 (x : Nibble) (s : State) : Host.Outcome State Fault Refusal :=
  .next (s.writeV x s.DT)

/-- FX15, set delay timer (R231). -/
def execFX15 (x : Nibble) (s : State) : Host.Outcome State Fault Refusal :=
  .next (s.setDT (s.readV x))

/-- FX18, set sound timer; `should_play_sound` waits for the next tick (R232). -/
def execFX18 (x : Nibble) (s : State) : Host.Outcome State Fault Refusal :=
  .next (s.setST (s.readV x))

/-- FX0A with no key latched: latch the smallest pressed key if some key is pressed; either way re-execute (R233). -/
def State.seekKey (s : State) : State :=
  match lowestPressed s.key with
  | none => s.rewind
  | some k => (s.latchKey k).rewind

/-- FX0A with a key latched: re-execute while it is held; on release write its index and clear the latch (R233). -/
def State.awaitRelease (x : Nibble) (s : State) : State :=
  if s.latchedKeyHeld then s.rewind else (s.writeV x (zextKey s.kwKey)).releaseLatch

/-- FX0A, wait for a key press and release (R233). -/
def execFX0A (x : Nibble) (s : State) : Host.Outcome State Fault Refusal :=
  .next (if s.kwActive then s.awaitRelease x else s.seekKey)

end Sys2Proof.Machine
end

