-- ==== Sys2Proof/Machine/Platform.lean ====
section
/-! DEFINITION. The host's requests other than `step` (R275): the timer tick (R262), run-state changes (R259), clearing
`draw_needed` (R269), reset with ROM load (R290-R294), and snapshots (R46, R296). -/

namespace Sys2Proof.Machine

/-! ## Timer tick (R262-R264) -/

/-- Count down, stopping at 0 (R262). -/
def countDown (t : Byte) : Byte := if t = 0 then 0 else t - 1

namespace State

/-- `Tick()` (R262; log 18): nothing in Quit (R263); else both timers count down and `should_play_sound` is recomputed from the
new `ST` (R264). -/
def tick (s : State) : State :=
  match s.runState with
  | .quit => s
  | .running | .paused =>
    { s with DT := countDown s.DT, ST := countDown s.ST, shouldPlaySound := decide (countDown s.ST ≠ 0) }

/-! ## Run state (R259, R261) -/

/-- A host change of `run_state`: the transitions of R259, `fault_cause` untouched (R261). Quit is final: a change out of
it is refused (log 14). A request for the state the block is in changes nothing.
DESIGN CHOICE (log 14): R259 lists no such request. -/
def changeRunState (wanted : RunState) (s : State) : Host.Outcome State Fault Refusal :=
  if s.runState = wanted then .next s
  else if s.runState = .quit then .refused .quitIsFinal
  else .next { s with runState := wanted }

/-- `draw_needed <- 0` (R269). -/
def clearDraw (s : State) : State := { s with drawNeeded := false }

/-! ## Reset and ROM load (R290-R294) -/

/-- The memory after load: zero, then FONT at 0, then the ROM at 0x200 (R292-R294). -/
def loadedMem (cfg : Config) (rom : List Byte) : Memory :=
  Memory.storeBytes (Memory.storeBytes [] 0 cfg.font.toList) Config.progBase rom

/-- Construction and ROM load (R44, R290): every element at its reset value. The configuration, the input ports, the
queue and the draw counter are not elements of the block's state and stay (log 11). -/
def loaded (rom : List Byte) (s : State) : State :=
  { State.reset with
    mem := loadedMem s.cfg rom
    cfg := s.cfg
    key := s.key
    rnd := s.rnd
    inbox := s.inbox
    draws := s.draws }

/-- `host_load(rom)`: a ROM of more than 3584 bytes is rejected before any copy, and no state exists (R291). -/
def load (rom : List Byte) (s : State) : Host.Outcome State Fault Refusal :=
  if Config.maxRom < rom.length then .refused .romTooLarge else .next (s.loaded rom)

/-! ## Snapshots (R46, R296; log 12) -/

/-- `host_snapshot_read`: the elements of R20. -/
def save (s : State) : Snapshot where
  mem := s.mem
  V := s.V
  I := s.I
  pc := s.pc
  stack := s.stack
  SP := s.SP.val
  DT := s.DT
  ST := s.ST
  disp := (List.range (Config.W * Config.H)).map fun k => s.disp.pixel (k % Config.W) (k / Config.W)
  kwActive := s.kwActive
  kwKey := s.kwKey.toNat
  drawNeeded := s.drawNeeded
  runState := s.runState
  faultCause := s.faultCause
  shouldPlaySound := s.shouldPlaySound

end State

/-- A display from its pixels in row-major order (R34). -/
def Display.ofPixels (l : List Bool) : Display :=
  Vector.ofFn fun y : Fin 32 => (BitVec.ofBoolListLE ((l.drop (y.val * Config.W)).take Config.W)).setWidth 64

/-- The invariants of R46, and that the saved memory is one of the block's memories in canonical form; `run_state` is one
of its three values by its type. -/
def Snapshot.admissible (p : Snapshot) : Bool :=
  decide (p.SP ≤ Config.stackDepth) && decide (p.kwKey ≤ 15) && decide (p.disp.length = Config.W * Config.H) && p.mem.wf

namespace State

/-- The whole state of R20 replaced by a saved one (R296); VARIANT is not part of it (D27), nor is the output `step_drew`
(log 12). -/
def replacedBy (p : Snapshot) (s : State) : State :=
  { s with
    mem := p.mem
    V := p.V
    I := p.I
    pc := p.pc
    stack := p.stack
    SP := Fin.ofNat 13 p.SP
    DT := p.DT
    ST := p.ST
    disp := Display.ofPixels p.disp
    kwActive := p.kwActive
    kwKey := BitVec.ofNat 4 p.kwKey
    drawNeeded := p.drawNeeded
    runState := p.runState
    faultCause := p.faultCause
    shouldPlaySound := p.shouldPlaySound }

/-- Only a new reset leaves Quit (R259, R272) or changes `fault_cause` there (R254): the engine is in Quit and the saved
state is not, or has another cause.
DEDUCED (log 12): R296 makes no exception to these rules, and D18 puts a host that leaves Quit outside the model. -/
def quitForbids (p : Snapshot) (s : State) : Bool :=
  decide (s.runState = .quit ∧ (p.runState ≠ .quit ∨ p.faultCause ≠ s.faultCause))

/-- `host_snapshot_write` (R296): refused where the saved state breaks R46 (D27), or where Quit forbids it. -/
def restore (p : Snapshot) (s : State) : Host.Outcome State Fault Refusal :=
  if p.admissible then
    if s.quitForbids p then .refused .quitIsFinal else .next (s.replacedBy p)
  else .refused .snapshotInvalid

end State

end Sys2Proof.Machine
end

