-- ==== Sys2Proof/Machine/Cycle.lean ====
section
/-! DEFINITION. One fetch, decode and execute (R72-R74), the step request (R260), and the serving of the host's queued
requests (R273; log 6). Machine/Step.lean only calls these. -/

namespace Sys2Proof.Machine

namespace State

/-- `Mem[pc] : Mem[pc+1]`, big-endian (R54, R73). -/
def fetchWord (s : State) : Word := wordOfBytes (s.mem.read s.pc.toNat) (s.mem.read (s.pc.toNat + 1))

/-- The PC bounds check, on the exact sum: `pc + 2 > 0xFFF` (R74; log 19). -/
def pcOutOfBounds (s : State) : Bool := decide (Config.topAddress < s.pc.toNat + 2)

end State

/-- `Step` from `step_drew <- 0` on (R72), the inputs already sampled: check pc, fetch, advance, decode, execute. -/
def runInstruction (s : State) : Host.Outcome State Fault Refusal :=
  let s := s.clearStepDrew
  if s.pcOutOfBounds then .next (s.advance.raise .pcOutOfBounds)
  else exec (decodeWord s.fetchWord) s.advance

/-- A `step` request (R72): in Running it samples the inputs and runs one instruction; in Paused and Quit it only clears
`step_drew`, and samples nothing (R260). -/
def stepRequest (key : Word) (rnd : Byte) (s : State) : Host.Outcome State Fault Refusal :=
  match s.runState with
  | .running => runInstruction (s.sample key rnd)
  | .paused | .quit => .next s.clearStepDrew

/-- A step request with nothing queued: the keypad vector and the random byte are fresh free values (log 4, log 5); as
`stepRequest` otherwise. -/
def unattendedStep (s : State) : Host.Outcome State Fault Refusal :=
  match s.runState with
  | .running => runInstruction s.drawFree
  | .paused | .quit => .next s.clearStepDrew

/-- Serve one request of the host (R275). -/
def serve (r : Request) (s : State) : Host.Outcome State Fault Refusal :=
  match r with
  | .step key rnd => stepRequest key rnd s
  | .tick => .next s.tick
  | .hostRunState wanted => s.changeRunState wanted
  | .hostClearDraw => .next s.clearDraw
  | .hostLoad rom => s.load rom
  | .hostSnapshotWrite saved => s.restore saved

/-- One event of the machine: the oldest queued request, or a step request when nothing is queued (R273).
DESIGN CHOICE (log 6): the schedule of the host's requests is data in State. Safe: every schedule is some value of it. -/
def cycle (s : State) : Host.Outcome State Fault Refusal :=
  match s.inbox with
  | [] => unattendedStep s
  | r :: rest => serve r (s.setInbox rest)

/-- Put a word where the next step fetches: at pc, or at 0x200 where a step at pc would fault before it fetches (R74); and
what makes the next step a fetch: Running, nothing queued. -/
def State.placeWord (w : Word) (s : State) : State :=
  let a : Word := if s.pcOutOfBounds then 0x200 else s.pc
  { s with
    mem := (s.mem.write a.toNat (highByte w)).write (a.toNat + 1) (lowByte w)
    pc := a
    runState := .running
    inbox := [] }

end Sys2Proof.Machine
end

