-- ==== Sys2Proof/Machine/Step.lean ====
section
/-! DEFINITION. One step of the machine, and where the host puts an opcode-table word so that the next step runs it. -/

namespace Sys2Proof.Machine

/-- One event: the oldest queued request of the host, or one fetch, decode and execute (R72, R273). -/
def step (s : State) : Host.Outcome State Fault Refusal := cycle s

/-- `s` with the word stored where `step` fetches next; `w` holds its `nbits` bits, every bit above them 0
(log 15). -/
def State.withFetchWord (s : State) (nbits w : Nat) : State := s.placeWord (BitVec.ofNat 16 (w % 2 ^ min nbits 16))

end Sys2Proof.Machine
end

