-- ==== Sys2Proof/Safety.lean ====
section
/-! DEFINITION. The terms claims are stated in: the frame of an instruction, the sprite as a picture (R103), the invariants
of a run, and a run that has not faulted. -/

namespace Sys2Proof.Machine

/-! ## Encodings -/

/-- A row of the opcode table decodes as `f` says: the words its mask and pattern admit are exactly those the decoder
reads as that instruction, each field taken from its place (R71, R75). -/
def RowDecodes (mask pattern : Word) (f : Word → Instr) : Prop :=
  ∀ w : Word, w &&& mask = pattern ↔ decodeWord w = f w

/-- How many words with high nibble `hi` lie in the no-op space (R87), counted over X and NN. -/
def noOpCount (hi : Nibble) : Nat :=
  ((List.range 16).map fun x => ((List.range 256).filter fun nn =>
    inNoOpSpace (packXNN hi (BitVec.ofNat 4 x) (BitVec.ofNat 8 nn))).length).sum

/-! ## Frames (R91): what an instruction leaves unchanged. -/

/-- What an instruction may change, beside pc: the registers it names, I, the `n` bytes of memory from `b` up, the
stack with its cursor, a timer, the display with its two marks, the key-wait latch. -/
structure MayChange where
  regs : List Nibble := []
  index : Bool := false
  mem : Option (Nat × Nat) := none
  stack : Bool := false
  dt : Bool := false
  st : Bool := false
  display : Bool := false
  latch : Bool := false
  deriving DecidableEq, Repr

/-- The registers a bitwise instruction may change: V[X], and on CHIP8 also VF (R163-R165). -/
def flagResetRegs (x : Nibble) (s : State) : List Nibble :=
  match s.cfg.variant with
  | .chip8 => [x, 0xF]
  | .schip => [x]

/-- V0 .. VX (R84). -/
def regsThrough (x : Nibble) : List Nibble := (List.range (x.toNat + 1)).map (BitVec.ofNat 4)

/-- Everything but pc and what `c` lists is as before: every other register, every byte of memory outside the
listed ones, and so on; the run state, the fault cause, `should_play_sound`, the configuration, the input ports and
the queue always. -/
def Frame (c : MayChange) (s t : State) : Prop :=
  (∀ r, r ∉ c.regs → t.readV r = s.readV r) ∧
  (c.index = false → t.I = s.I) ∧
  (∀ a, (∀ b n, c.mem = some (b, n) → a < b ∨ b + n ≤ a) → t.mem.read a = s.mem.read a) ∧
  (c.stack = false → t.stack = s.stack ∧ t.SP = s.SP) ∧
  (c.dt = false → t.DT = s.DT) ∧
  (c.st = false → t.ST = s.ST) ∧
  (c.display = false → t.disp = s.disp ∧ t.drawNeeded = s.drawNeeded ∧ t.stepDrew = s.stepDrew) ∧
  (c.latch = false → t.kwActive = s.kwActive ∧ t.kwKey = s.kwKey) ∧
  t.runState = s.runState ∧ t.faultCause = s.faultCause ∧ t.shouldPlaySound = s.shouldPlaySound ∧
  t.cfg = s.cfg ∧ t.key = s.key ∧ t.rnd = s.rnd ∧ t.inbox = s.inbox ∧ t.draws = s.draws

/-- The frame of each instruction as its rule names it (R91): the registers, I, memory bytes, and so on it may change.
Memory is named by the address the meaning stores to, `I`, and the number of bytes. -/
def footprint (i : Instr) (s : State) : MayChange :=
  match i with
  | .op00E0 _ => { display := true }
  | .op00EE _ => { stack := true }
  | .op1NNN _ => {}
  | .op2NNN _ => { stack := true }
  | .op3XNN _ _ => {}
  | .op4XNN _ _ => {}
  | .op5XY0 _ _ => {}
  | .op6XNN x _ => { regs := [x] }
  | .op7XNN x _ => { regs := [x] }
  | .op8XY0 x _ => { regs := [x] }
  | .op8XY1 x _ => { regs := flagResetRegs x s }
  | .op8XY2 x _ => { regs := flagResetRegs x s }
  | .op8XY3 x _ => { regs := flagResetRegs x s }
  | .op8XY4 x _ => { regs := [x, 0xF] }
  | .op8XY5 x _ => { regs := [x, 0xF] }
  | .op8XY6 x _ => { regs := [x, 0xF] }
  | .op8XY7 x _ => { regs := [x, 0xF] }
  | .op8XYE x _ => { regs := [x, 0xF] }
  | .op9XY0 _ _ => {}
  | .opANNN _ => { index := true }
  | .opBNNN _ => {}
  | .opCXNN x _ => { regs := [x] }
  | .opDXYN _ _ _ => { regs := [0xF], display := true }
  | .opEX9E _ => {}
  | .opEXA1 _ => {}
  | .opFX07 x => { regs := [x] }
  | .opFX0A x => { regs := [x], latch := true }
  | .opFX15 _ => { dt := true }
  | .opFX18 _ => { st := true }
  | .opFX1E _ => { index := true }
  | .opFX29 _ => { index := true }
  | .opFX33 _ => { mem := some (s.I.toNat, 3) }
  | .opFX55 x => { mem := some (s.I.toNat, x.toNat + 1), index := decide (s.cfg.variant = .chip8) }
  | .opFX65 x => { regs := regsThrough x, index := decide (s.cfg.variant = .chip8) }
  | .nop _ => {}

/-! ## Faults (R251) -/

/-- R251's table, the execute-stage rows: the cause an instruction raises in a state, if its condition holds there. -/
def faultOf (i : Instr) (s : State) : Option FaultCause :=
  match i with
  | .op2NNN _ => if s.SP.val = 12 then some .stackOverflow else none
  | .op00EE _ => if s.SP.val = 0 then some .stackUnderflow else none
  | .opDXYN _ y n =>
    if ∃ r < s.visibleRows y n, 0xFFF < s.I.toNat + r then some .memOutOfBounds else none
  | .opFX33 _ => if 0xFFF < s.I.toNat + 2 then some .memOutOfBounds else none
  | .opFX55 x => if ∃ k < x.toNat + 1, 0xFFF < s.I.toNat + k then some .memOutOfBounds else none
  | .opFX65 x => if ∃ k < x.toNat + 1, 0xFFF < s.I.toNat + k then some .memOutOfBounds else none
  | .opEX9E x => if 15 < (s.readV x).toNat then some .keyIndexOutOfRange else none
  | .opEXA1 x => if 15 < (s.readV x).toNat then some .keyIndexOutOfRange else none
  | .op00E0 _ => none
  | .op1NNN _ => none
  | .op3XNN _ _ => none
  | .op4XNN _ _ => none
  | .op5XY0 _ _ => none
  | .op6XNN _ _ => none
  | .op7XNN _ _ => none
  | .op8XY0 _ _ => none
  | .op8XY1 _ _ => none
  | .op8XY2 _ _ => none
  | .op8XY3 _ _ => none
  | .op8XY4 _ _ => none
  | .op8XY5 _ _ => none
  | .op8XY6 _ _ => none
  | .op8XY7 _ _ => none
  | .op8XYE _ _ => none
  | .op9XY0 _ _ => none
  | .opANNN _ => none
  | .opBNNN _ => none
  | .opCXNN _ _ => none
  | .opFX07 _ => none
  | .opFX0A _ => none
  | .opFX15 _ => none
  | .opFX18 _ => none
  | .opFX1E _ => none
  | .opFX29 _ => none
  | .nop _ => none

/-! ## What an instruction may depend on -/

/-- The `variant_dependent` column of spec/opcode_table.json (R2, R41). -/
def variantDependent : Instr → Bool
  | .op8XY1 _ _ | .op8XY2 _ _ | .op8XY3 _ _ | .op8XY6 _ _ | .op8XYE _ _ | .opFX55 _ | .opFX65 _ => true
  | .op00E0 _ | .op00EE _ | .op1NNN _ | .op2NNN _ | .op3XNN _ _ | .op4XNN _ _ | .op5XY0 _ _ | .op6XNN _ _
  | .op7XNN _ _ | .op8XY0 _ _ | .op8XY4 _ _ | .op8XY5 _ _ | .op8XY7 _ _ | .op9XY0 _ _ | .opANNN _ | .opBNNN _
  | .opCXNN _ _ | .opDXYN _ _ _ | .opEX9E _ | .opEXA1 _ | .opFX07 _ | .opFX0A _ | .opFX15 _ | .opFX18 _ | .opFX1E _
  | .opFX29 _ | .opFX33 _ | .nop _ => false

/-- The instructions that read the keypad (R35). -/
def readsKeypad : Instr → Bool
  | .opEX9E _ | .opEXA1 _ | .opFX0A _ => true
  | .op00E0 _ | .op00EE _ | .op1NNN _ | .op2NNN _ | .op3XNN _ _ | .op4XNN _ _ | .op5XY0 _ _ | .op6XNN _ _
  | .op7XNN _ _ | .op8XY0 _ _ | .op8XY1 _ _ | .op8XY2 _ _ | .op8XY3 _ _ | .op8XY4 _ _ | .op8XY5 _ _ | .op8XY6 _ _
  | .op8XY7 _ _ | .op8XYE _ _ | .op9XY0 _ _ | .opANNN _ | .opBNNN _ | .opCXNN _ _ | .opDXYN _ _ _ | .opFX07 _
  | .opFX15 _ | .opFX18 _ | .opFX1E _ | .opFX29 _ | .opFX33 _ | .opFX55 _ | .opFX65 _ | .nop _ => false

/-- The instruction that reads the random byte (R171). -/
def readsRandom : Instr → Bool
  | .opCXNN _ _ => true
  | .op00E0 _ | .op00EE _ | .op1NNN _ | .op2NNN _ | .op3XNN _ _ | .op4XNN _ _ | .op5XY0 _ _ | .op6XNN _ _
  | .op7XNN _ _ | .op8XY0 _ _ | .op8XY1 _ _ | .op8XY2 _ _ | .op8XY3 _ _ | .op8XY4 _ _ | .op8XY5 _ _ | .op8XY6 _ _
  | .op8XY7 _ _ | .op8XYE _ _ | .op9XY0 _ _ | .opANNN _ | .opBNNN _ | .opDXYN _ _ _ | .opEX9E _ | .opEXA1 _ | .opFX07 _
  | .opFX0A _ | .opFX15 _ | .opFX18 _ | .opFX1E _ | .opFX29 _ | .opFX33 _ | .opFX55 _ | .opFX65 _ | .nop _ => false

/-- Apply a change to the next state an outcome carries. -/
def mapNext (f : State → State) : Host.Outcome State Fault Refusal → Host.Outcome State Fault Refusal
  | .next t => .next (f t)
  | .fault r => .fault r
  | .refused r => .refused r

/-- The same state under another variant (R41). -/
def State.withVariant (v : Variant) (s : State) : State := { s with cfg := { s.cfg with variant := v } }

/-- The same state with another keypad vector sampled (R35). -/
def State.withKey (k : Word) (s : State) : State := { s with key := k }

/-- The same state with another random byte drawn (R171). -/
def State.withRnd (r : Byte) (s : State) : State := { s with rnd := r }

/-! ## The sprite as a picture (R101, R103) -/

/-- The sprite drawn by DXYN has a set bit at (x, y): the pixel lies in one of the visible rows and eight columns of the
anchor, and that bit of that row's byte is 1. Columns at or beyond W have no pixel. -/
def spriteBit (xr yr n : Nibble) (s : State) (x y : Nat) : Bool :=
  decide (s.anchorY yr ≤ y ∧ y < s.anchorY yr + s.visibleRows yr n ∧ s.anchorX xr ≤ x ∧ x < s.anchorX xr + 8 ∧ x < Config.W) &&
    (s.mem.read (s.I.toNat + (y - s.anchorY yr))).getLsbD (7 - (x - s.anchorX xr))

/-- A set bit of the sprite falls on a pixel that is on (R103). -/
def SpriteCollides (xr yr n : Nibble) (s : State) : Prop :=
  ∃ x y, spriteBit xr yr n s x y = true ∧ s.disp.pixel x y = true

/-! ## Effects shared by the statements of several instructions -/

/-- The effect of a bitwise instruction with result `f` (R163-R165): V[X] is the result, then VF is cleared on CHIP8, also
where VF is V[X] itself. -/
def BitwiseEffect (f : Byte → Byte → Byte) (i : Nibble → Nibble → Instr) : Prop :=
  ∀ (x y : Nibble) (s : State), ∃ t, exec (i x y) s = .next t ∧
    (s.cfg.variant = .chip8 → t.readV 0xF = 0) ∧
    (s.cfg.variant = .schip ∨ x ≠ 0xF → t.readV x = f (s.readV x) (s.readV y)) ∧
    t.pc = s.pc ∧ Frame { regs := flagResetRegs x s } s t

/-- The effect of a skip under the condition `c` (R140-R143, R146): pc moves past one more word exactly when it holds, and
nothing else changes. -/
def SkipEffect (c : State → Prop) (i : Instr) : Prop :=
  ∀ s : State, ∃ t, exec i s = .next t ∧ (c s → t.pc = s.pc + 2) ∧ (¬ c s → t.pc = s.pc) ∧ Frame {} s t

/-! ## Sequences of instructions -/

/-- Run instructions one after the other, each after its fetch's advance of pc (R24, R72), stopping at a fault or refusal. -/
def execAll : List Instr → State → Host.Outcome State Fault Refusal
  | [], s => .next s
  | i :: is, s =>
    match exec i s.advance with
    | .next t => execAll is t
    | .fault f => .fault f
    | .refused r => .refused r

/-! ## Invariants -/

/-- No snapshot is waiting to be restored: a restore replaces the whole state (R296), so no invariant of the engine's own
runs outlives one. -/
def NoRestoreQueued (s : State) : Prop := ∀ p, Request.hostSnapshotWrite p ∉ s.inbox

/-- The range of pc (R27): at most 0x10FE while the engine may still step, at most 0x1100 after a fault; every stack
entry, a pushed return address or the reset value, at most 0xFFF. -/
def PcInRange (s : State) : Prop :=
  s.pc.toNat ≤ 0x1100 ∧ (s.runState ≠ .quit → s.pc.toNat ≤ 0x10FE) ∧ ∀ w ∈ s.stack, w.toNat ≤ 0xFFF

/-- A recorded fault has put the engine in Quit (R252, R254). -/
def FaultQuits (s : State) : Prop := s.faultCause ≠ .none → s.runState = .quit

/-- A safe state: no fault has ended the run (R250, R304). -/
def NotFaulted (s : State) : Prop := s.faultCause = .none

end Sys2Proof.Machine
end

