-- ==== Sys2Proof/Certificates/Slice0/Obligations.lean ====
section
/-! DEFINITION. The statements for the provers. In a statement about `exec`, `s.pc` is the instruction's address plus 2
(R24, R72). `s.raise c` is the fault entry of R252, opened field by field in FaultTableIsComplete. -/

open Sys2Proof Sys2Proof.Machine

/-! ## Encoding -/

/-- Decoding the bytes of a well-formed instruction gives it back, every operand at every value, and leaves the rest of the
bytes (R70, R71, R75). -/
def Obligations.DecodeInvertsEncode : Prop :=
  ∀ (i : Instr) (rest : List Byte), i.wellFormed = true → decode (encodeBytes i ++ rest) = .ok (i, rest)

/-- Every word decodes to a well-formed instruction whose word it is (R19, R75, R88). That no two words share an instruction
is the model's choice (log 13): 00E0, 00EE and the no-op keep the bits R76 and R86 do not examine. -/
def Obligations.EncodeInvertsDecode : Prop :=
  ∀ w : Word, (decodeWord w).wellFormed = true ∧ encode (decodeWord w) = w

/-- The dispatch of R75 and the mask and match columns of spec/opcode_table.json agree: a word outside the no-op space
belongs to exactly one row, and decodes to that row's instruction; a word of the no-op space belongs to none. -/
def Obligations.DecoderAgreesWithOpcodeTable : Prop :=
  ∀ w : Word, (opcodeRows.filter (·.admits w)).map (·.mnemonic) =
    if inNoOpSpace w then [] else [(decodeWord w).mnemonic]

/-- R87: the no-op words are exactly those of its table, in the counts it gives, 21552 in all; every other word matches
exactly one row of the opcode table. -/
def Obligations.NoOpSpaceHasItsWordsAndCounts : Prop :=
  (∀ w : Word, decodeWord w = .nop w ↔ inNoOpSpace w = true) ∧
  (noOpCount 0x0 = 4064 ∧ noOpCount 0x5 = 3840 ∧ noOpCount 0x8 = 1792 ∧ noOpCount 0x9 = 3840 ∧ noOpCount 0xE = 4064 ∧
    noOpCount 0xF = 3952) ∧
  ((List.range 16).map fun hi => noOpCount (BitVec.ofNat 4 hi)).sum = 21552 ∧
  ∀ w : Word, inNoOpSpace w = false → (opcodeRows.filter (·.admits w)).length = 1

/-- R71: every field is the slice of the word its mask and shift select. -/
def Obligations.FieldsAreSlicesOfTheWord : Prop :=
  ∀ w : Word,
    (fieldNNN w).toNat = (w &&& 0x0FFF).toNat ∧ (fieldNN w).toNat = (w &&& 0x00FF).toNat ∧
    (fieldN w).toNat = (w &&& 0x000F).toNat ∧ (fieldX w).toNat = ((w >>> 8) &&& 0xF).toNat ∧
    (fieldY w).toNat = ((w >>> 4) &&& 0xF).toNat ∧ (fieldHi w).toNat = ((w >>> 12) &&& 0xF).toNat

/-- Words written out from the encodings of spec/opcode_table.json, at least one of every family, decode to the instruction
they stand for (R71, R75-R81). -/
def Obligations.SpelledOutWordsDecode : Prop :=
  decodeWord 0x00E0 = .op00E0 0 ∧ decodeWord 0x0FEE = .op00EE 0xF ∧ decodeWord 0x1234 = .op1NNN 0x234 ∧
  decodeWord 0x2208 = .op2NNN 0x208 ∧ decodeWord 0x3312 = .op3XNN 3 0x12 ∧ decodeWord 0x4313 = .op4XNN 3 0x13 ∧
  decodeWord 0x5120 = .op5XY0 1 2 ∧ decodeWord 0x5121 = .nop 0x5121 ∧ decodeWord 0x6A5C = .op6XNN 0xA 0x5C ∧
  decodeWord 0x70FF = .op7XNN 0 0xFF ∧ decodeWord 0x8F15 = .op8XY5 0xF 1 ∧ decodeWord 0x840E = .op8XYE 4 0 ∧
  decodeWord 0x9120 = .op9XY0 1 2 ∧ decodeWord 0xA300 = .opANNN 0x300 ∧ decodeWord 0xBFFF = .opBNNN 0xFFF ∧
  decodeWord 0xC30F = .opCXNN 3 0x0F ∧ decodeWord 0xD234 = .opDXYN 2 3 4 ∧ decodeWord 0xE59E = .opEX9E 5 ∧
  decodeWord 0xE5A1 = .opEXA1 5 ∧ decodeWord 0xF30A = .opFX0A 3 ∧ decodeWord 0xFF65 = .opFX65 0xF

/-! ## Fetch and step -/

/-- R72, R73: a step request samples the inputs, clears `step_drew`, checks pc, fetches the two bytes big-endian, advances
pc by 2 and executes what the word decodes to; when the engine is not Running it changes nothing but `step_drew`. -/
def Obligations.StepRequestFetchesAndExecutes : Prop :=
  ∀ (s : State) (key : Word) (rnd : Byte) (rest : List Request), s.inbox = .step key rnd :: rest →
    step s =
      if s.runState ≠ .running then .next { s with inbox := rest, stepDrew := false }
      else if 0xFFF < s.pc.toNat + 2 then
        .next { s with
          inbox := rest, key := key, rnd := rnd, pc := BitVec.ofNat 16 (s.pc.toNat + 2),
          faultCause := .pcOutOfBounds, runState := .quit, stepDrew := false }
      else
        exec
          (decodeWord (BitVec.ofNat 16 ((s.mem.read s.pc.toNat).toNat * 256 + (s.mem.read (s.pc.toNat + 1)).toNat)))
          { s with inbox := rest, key := key, rnd := rnd, stepDrew := false, pc := BitVec.ofNat 16 (s.pc.toNat + 2) }

/-- When the bytes at pc decode to an instruction, an unattended step of a Running engine below 0xFFE is exec of it, after
the advance of pc, with `step_drew` cleared and free inputs drawn (the model's form of the inputs, logs 4, 5 and 6). -/
def Obligations.StepRunsTheDecodedInstruction : Prop :=
  ∀ (s : State) (i : Instr), s.inbox = [] → s.runState = .running → s.pc.toNat ≤ 0xFFD →
    decode [s.mem.read s.pc.toNat, s.mem.read (s.pc.toNat + 1)] = .ok (i, []) →
    step s = exec i { s with
      stepDrew := false, key := Config.freeKeys s.draws, rnd := Config.freeByte s.draws, draws := s.draws + 1,
      pc := s.pc + 2 }

/-- The word the host places is the one the next step runs, from any state with canonical memory. -/
def Obligations.PlacedWordRunsNext : Prop :=
  ∀ (s : State) (w : Word), s.mem.wf = true →
    ∃ u : State, step (s.withFetchWord 16 w.toNat) = exec (decodeWord w) u ∧
      u.pc = (if s.pc.toNat ≤ 0xFFD then s.pc else 0x200) + 2 ∧
      (∀ r, u.readV r = s.readV r) ∧ u.I = s.I ∧ u.stack = s.stack ∧ u.SP = s.SP ∧ u.DT = s.DT ∧ u.ST = s.ST ∧
      u.disp = s.disp ∧ u.kwActive = s.kwActive ∧ u.kwKey = s.kwKey ∧ u.cfg = s.cfg

/-- R74: at 0xFFE and above a step executes nothing and raises PC_OUT_OF_BOUNDS with pc at a + 2; the check uses the exact
sum; up to 0xFFD the instruction at pc executes. -/
def Obligations.PcCheckGuardsEveryFetch : Prop :=
  ∀ (s : State) (key : Word) (rnd : Byte) (rest : List Request),
    s.inbox = .step key rnd :: rest → s.runState = .running →
    (0xFFE ≤ s.pc.toNat → ∃ t, step s = .next t ∧ t.pc.toNat = (s.pc.toNat + 2) % 65536 ∧
      t.faultCause = .pcOutOfBounds ∧ t.runState = .quit ∧ t.stepDrew = false ∧
      t.mem = s.mem ∧ t.V = s.V ∧ t.I = s.I ∧ t.stack = s.stack ∧ t.SP = s.SP ∧ t.DT = s.DT ∧ t.ST = s.ST ∧
      t.disp = s.disp ∧ t.kwActive = s.kwActive ∧ t.kwKey = s.kwKey ∧ t.drawNeeded = s.drawNeeded ∧
      t.shouldPlaySound = s.shouldPlaySound ∧ t.cfg = s.cfg) ∧
    (s.pc.toNat ≤ 0xFFD →
      step s = exec (decodeWord s.fetchWord)
        { s with inbox := rest, key := key, rnd := rnd, stepDrew := false, pc := s.pc + 2 })

/-! ## Faults -/

/-- R252, R253: a step that leaves Running has taken a fault: `fault_cause` holds the cause, the engine is in Quit,
`step_drew` is 0, pc keeps the fetch's advance, and every other element is as before the step. -/
def Obligations.FaultEntryIsPrecise : Prop :=
  ∀ (s t : State) (key : Word) (rnd : Byte) (rest : List Request),
    s.inbox = .step key rnd :: rest → s.runState = .running → step s = .next t → t.runState ≠ .running →
    t.faultCause ≠ .none ∧ t.runState = .quit ∧ t.stepDrew = false ∧ t.pc = s.pc + 2 ∧
    t = { s with
      inbox := rest, key := key, rnd := rnd, pc := t.pc, faultCause := t.faultCause, runState := t.runState,
      stepDrew := t.stepDrew }

/-- R251's table, R252 and R255: each instruction raises exactly the cause of its row, exactly under that row's condition,
and at most one. The fault entry, which `s.raise c` names in the other statements, records the cause, puts the engine in Quit,
clears `step_drew` and leaves every other element as it was; otherwise the instruction completes with run state and fault
cause untouched; each cause has its code. That a fault is a next state is the model's form (log 7). -/
def Obligations.FaultTableIsComplete : Prop :=
  (∀ (i : Instr) (s : State),
    (∀ c, faultOf i s = some c → exec i s = .next (s.raise c) ∧ c ≠ .none ∧
      s.raise c = { s with faultCause := c, runState := .quit, stepDrew := false }) ∧
    (faultOf i s = none → ∃ t, exec i s = .next t ∧ t.runState = s.runState ∧ t.faultCause = s.faultCause)) ∧
  (∀ (s : State) (key : Word) (rnd : Byte) (rest : List Request),
    s.inbox = .step key rnd :: rest → s.runState = .running → 0xFFF < s.pc.toNat + 2 →
    ∃ t, step s = .next t ∧ t.faultCause = .pcOutOfBounds ∧ t.runState = .quit) ∧
  FaultCause.none.code = 0 ∧ FaultCause.pcOutOfBounds.code = 1 ∧ FaultCause.stackOverflow.code = 2 ∧
  FaultCause.stackUnderflow.code = 3 ∧ FaultCause.memOutOfBounds.code = 4 ∧ FaultCause.keyIndexOutOfRange.code = 5

/-- The machine has no transition only where the host asks for what the spec rejects: a ROM above 3584 bytes (R291), a
snapshot that breaks R46 or, the model's choice (log 12), whose memory is not in canonical form, and leaving Quit or changing
`fault_cause` in it by a run-state request or a restore (R254, R259; logs 12, 14). It never ends in a fault outcome: the
model's choice (log 7), as the type of fault outcomes is empty. -/
def Obligations.StepStopsOnlyOnRejectedRequests : Prop :=
  ∀ s : State, (∀ f, step s ≠ .fault f) ∧
    ∀ r, step s = .refused r ↔
      (r = .romTooLarge ∧ ∃ rom rest, s.inbox = .hostLoad rom :: rest ∧ 3584 < rom.length) ∨
      (r = .snapshotInvalid ∧ ∃ p rest, s.inbox = .hostSnapshotWrite p :: rest ∧ p.admissible = false) ∨
      (r = .quitIsFinal ∧ s.runState = .quit ∧
        ((∃ wanted rest, s.inbox = .hostRunState wanted :: rest ∧ wanted ≠ .quit) ∨
          ∃ p rest, s.inbox = .hostSnapshotWrite p :: rest ∧ p.admissible = true ∧
            (p.runState ≠ .quit ∨ p.faultCause ≠ s.faultCause)))

/-- No request but a ROM load, the new reset, leaves Quit or changes the fault cause in it (R254, R259, R272); one that is no
restore either leaves everything a program can read as it is (R260, R263). That a restore is bound by Quit too is deduced
(log 12), and that a load is served in Quit is the model's reading (log 11). -/
def Obligations.QuitIsFinal : Prop :=
  ∀ s t : State, s.runState = .quit → step s = .next t → (∀ rom rest, s.inbox ≠ .hostLoad rom :: rest) →
    t.runState = .quit ∧ t.faultCause = s.faultCause ∧
    ((∀ p rest, s.inbox ≠ .hostSnapshotWrite p :: rest) →
      t = { s with inbox := s.inbox.tail, stepDrew := t.stepDrew, drawNeeded := t.drawNeeded })

/-! ## Display -/

/-- R100: 00E0 turns every pixel off and sets both marks; VF and everything else are unchanged. -/
def Obligations.ClearDisplayTurnsAllPixelsOff : Prop :=
  RowDecodes 0xF0FF 0x00E0 (fun w => .op00E0 (fieldX w)) ∧
  ∀ (u : Nibble) (s : State), ∃ t, exec (.op00E0 u) s = .next t ∧
    (∀ x y, t.disp.pixel x y = false) ∧ t.drawNeeded = true ∧ t.stepDrew = true ∧ t.pc = s.pc ∧
    Frame { display := true } s t

/-- R101, R103: when every drawn row lies in memory, DXYN flips exactly the pixels under the sprite's set bits, clipped at
the edges, and VF is 1 exactly when a set bit fell on a pixel that was on; else it faults and draws nothing. -/
def Obligations.DrawSpriteXorsAndDetectsCollision : Prop :=
  RowDecodes 0xF000 0xD000 (fun w => .opDXYN (fieldX w) (fieldY w) (fieldN w)) ∧
  ∀ (x y n : Nibble) (s : State),
    let rows := min n.toNat (32 - (s.readV y).toNat % 32)
    (0 < rows ∧ 0xFFF < s.I.toNat + (rows - 1) → exec (.opDXYN x y n) s = .next (s.raise .memOutOfBounds)) ∧
    (rows = 0 ∨ s.I.toNat + (rows - 1) ≤ 0xFFF → ∃ t, exec (.opDXYN x y n) s = .next t ∧
      (∀ px py, t.disp.pixel px py =
        (s.disp.pixel px py ^^
          (decide ((s.readV y).toNat % 32 ≤ py ∧ py < (s.readV y).toNat % 32 + rows ∧
              (s.readV x).toNat % 64 ≤ px ∧ px < (s.readV x).toNat % 64 + 8 ∧ px < 64) &&
            (s.mem.read (s.I.toNat + (py - (s.readV y).toNat % 32))).getLsbD (7 - (px - (s.readV x).toNat % 64))))) ∧
      (SpriteCollides x y n s → t.readV 0xF = 1) ∧ (¬ SpriteCollides x y n s → t.readV 0xF = 0) ∧
      t.drawNeeded = true ∧ t.stepDrew = true ∧ t.pc = s.pc ∧ Frame { regs := [0xF], display := true } s t)

/-- R102: drawing the same sprite again, from any state with the same anchor, rows, I and sprite bytes and the display the
first draw left, puts every pixel back; the second draw sets VF exactly when a set bit fell on a pixel off at first. -/
def Obligations.DrawingTwiceRestoresTheDisplay : Prop :=
  ∀ (x y n : Nibble) (s : State), s.visibleRows y n = 0 ∨ s.I.toNat + s.visibleRows y n ≤ 0x1000 →
    ∃ t, exec (.opDXYN x y n) s = .next t ∧
      ∀ s' : State, s'.disp = t.disp → s'.readV x = s.readV x → s'.readV y = s.readV y → s'.I = s.I →
        (∀ r, r < s.visibleRows y n → s'.mem.read (s.I.toNat + r) = s.mem.read (s.I.toNat + r)) →
        ∃ t', exec (.opDXYN x y n) s' = .next t' ∧ t'.disp = s.disp ∧
          (t'.readV 0xF = 1 ↔ ∃ px py, spriteBit x y n s px py = true ∧ s.disp.pixel px py = false)

/-! ## Control flow -/

/-- R120: 00EE pops the return address into pc, the entry keeps its value; with an empty stack it faults. -/
def Obligations.ReturnPopsTheStack : Prop :=
  RowDecodes 0xF0FF 0x00EE (fun w => .op00EE (fieldX w)) ∧
  ∀ (u : Nibble) (s : State),
    (s.SP.val = 0 → exec (.op00EE u) s = .next (s.raise .stackUnderflow)) ∧
    (∀ h : 0 < s.SP.val, ∃ t, exec (.op00EE u) s = .next t ∧ t.SP.val = s.SP.val - 1 ∧
      t.pc = s.stack[s.SP.val - 1] ∧ t.stack = s.stack ∧ Frame { stack := true } s t)

/-- R121: 1NNN puts NNN in pc and changes nothing else. -/
def Obligations.JumpGoesToItsTarget : Prop :=
  RowDecodes 0xF000 0x1000 (fun w => .op1NNN (fieldNNN w)) ∧
  ∀ (nnn : Addr12) (s : State), ∃ t, exec (.op1NNN nnn) s = .next t ∧ t.pc.toNat = nnn.toNat ∧ Frame {} s t

/-- R122: 2NNN pushes the address after it and jumps; with twelve entries in use it faults. -/
def Obligations.CallPushesTheReturnAddress : Prop :=
  RowDecodes 0xF000 0x2000 (fun w => .op2NNN (fieldNNN w)) ∧
  ∀ (nnn : Addr12) (s : State),
    (s.SP.val = 12 → exec (.op2NNN nnn) s = .next (s.raise .stackOverflow)) ∧
    (∀ h : s.SP.val < 12, ∃ t, exec (.op2NNN nnn) s = .next t ∧ t.SP.val = s.SP.val + 1 ∧
      t.stack[s.SP.val] = s.pc ∧ (∀ k (hk : k < 12), k ≠ s.SP.val → t.stack[k] = s.stack[k]) ∧
      t.pc.toNat = nnn.toNat ∧ Frame { stack := true } s t)

/-- R123: BNNN jumps to the exact sum of V0 and NNN, on both variants. -/
def Obligations.IndexedJumpAddsV0 : Prop :=
  RowDecodes 0xF000 0xB000 (fun w => .opBNNN (fieldNNN w)) ∧
  ∀ (nnn : Addr12) (s : State), ∃ t, exec (.opBNNN nnn) s = .next t ∧
    t.pc.toNat = (s.readV 0).toNat + nnn.toNat ∧ Frame {} s t

/-- R124: k nested calls, 1 ≤ k ≤ 12, each returned from in last-in, first-out order, leave pc at the instruction after the
outermost call and SP where it was; one call beyond the twelve entries faults. -/
def Obligations.NestedCallsReturnInOrder : Prop :=
  (∀ (s : State) (targets : List Addr12) (us : List Nibble), targets ≠ [] → s.SP.val + targets.length ≤ 12 →
    us.length = targets.length →
    ∃ t, execAll (targets.map .op2NNN ++ us.map .op00EE) s = .next t ∧ t.pc = s.pc + 2 ∧ t.SP = s.SP ∧
      (∀ k (hk : k < 12), k < s.SP.val → t.stack[k] = s.stack[k]) ∧ Frame { stack := true } s t) ∧
  (∀ (s : State) (targets : List Addr12) (nnn : Addr12), s.SP.val + targets.length = 12 →
    ∃ t, execAll (targets.map .op2NNN) s = .next t ∧
      exec (.op2NNN nnn) t.advance = .next (t.advance.raise .stackOverflow))

/-! ## Skips -/

/-- R140, R141: 3XNN skips exactly when V[X] equals NN, 4XNN exactly when it does not. -/
def Obligations.SkipsCompareWithTheImmediate : Prop :=
  RowDecodes 0xF000 0x3000 (fun w => .op3XNN (fieldX w) (fieldNN w)) ∧
  RowDecodes 0xF000 0x4000 (fun w => .op4XNN (fieldX w) (fieldNN w)) ∧
  ∀ (x : Nibble) (nn : Byte), SkipEffect (fun s => s.readV x = nn) (.op3XNN x nn) ∧
    SkipEffect (fun s => s.readV x ≠ nn) (.op4XNN x nn)

/-- R142, R143: 5XY0 skips exactly when V[X] equals V[Y], 9XY0 exactly when it does not; with N ≠ 0 both words are the no-op. -/
def Obligations.SkipsCompareTwoRegisters : Prop :=
  RowDecodes 0xF00F 0x5000 (fun w => .op5XY0 (fieldX w) (fieldY w)) ∧
  RowDecodes 0xF00F 0x9000 (fun w => .op9XY0 (fieldX w) (fieldY w)) ∧
  (∀ w : Word, (fieldHi w = 5 ∨ fieldHi w = 9) → fieldN w ≠ 0 → decodeWord w = .nop w) ∧
  ∀ x y : Nibble, SkipEffect (fun s => s.readV x = s.readV y) (.op5XY0 x y) ∧
    SkipEffect (fun s => s.readV x ≠ s.readV y) (.op9XY0 x y)

/-- R144, R145: EX9E skips exactly when key V[X] is pressed, EXA1 exactly when it is not; an index above 15 faults in both. -/
def Obligations.SkipsTestTheKeypad : Prop :=
  RowDecodes 0xF0FF 0xE09E (fun w => .opEX9E (fieldX w)) ∧ RowDecodes 0xF0FF 0xE0A1 (fun w => .opEXA1 (fieldX w)) ∧
  ∀ (x : Nibble) (s : State),
    (15 < (s.readV x).toNat → exec (.opEX9E x) s = .next (s.raise .keyIndexOutOfRange) ∧
      exec (.opEXA1 x) s = .next (s.raise .keyIndexOutOfRange)) ∧
    ((s.readV x).toNat ≤ 15 →
      (∃ t, exec (.opEX9E x) s = .next t ∧
        t.pc = (if s.key.getLsbD (s.readV x).toNat = true then s.pc + 2 else s.pc) ∧ Frame {} s t) ∧
      (∃ t, exec (.opEXA1 x) s = .next t ∧
        t.pc = (if s.key.getLsbD (s.readV x).toNat = false then s.pc + 2 else s.pc) ∧ Frame {} s t))

/-! ## Loads and ALU -/

/-- R160, R161, R162: 6XNN loads NN, 7XNN adds NN modulo 256 with no carry to VF, 8XY0 copies V[Y]; nothing else changes. -/
def Obligations.LoadsAndImmediateAdd : Prop :=
  RowDecodes 0xF000 0x6000 (fun w => .op6XNN (fieldX w) (fieldNN w)) ∧
  RowDecodes 0xF000 0x7000 (fun w => .op7XNN (fieldX w) (fieldNN w)) ∧
  RowDecodes 0xF00F 0x8000 (fun w => .op8XY0 (fieldX w) (fieldY w)) ∧
  (∀ (x : Nibble) (nn : Byte) (s : State),
    (∃ t, exec (.op6XNN x nn) s = .next t ∧ t.readV x = nn ∧ t.pc = s.pc ∧ Frame { regs := [x] } s t) ∧
    (∃ t, exec (.op7XNN x nn) s = .next t ∧ (t.readV x).toNat = ((s.readV x).toNat + nn.toNat) % 256 ∧ t.pc = s.pc ∧
      Frame { regs := [x] } s t)) ∧
  ∀ (x y : Nibble) (s : State),
    ∃ t, exec (.op8XY0 x y) s = .next t ∧ t.readV x = s.readV y ∧ t.pc = s.pc ∧ Frame { regs := [x] } s t

/-- R163, R164, R165: OR, AND and XOR into V[X]; on CHIP8 VF is then cleared, also when X is F; on SCHIP it is not. -/
def Obligations.BitwiseOpsAndFlagReset : Prop :=
  RowDecodes 0xF00F 0x8001 (fun w => .op8XY1 (fieldX w) (fieldY w)) ∧
  RowDecodes 0xF00F 0x8002 (fun w => .op8XY2 (fieldX w) (fieldY w)) ∧
  RowDecodes 0xF00F 0x8003 (fun w => .op8XY3 (fieldX w) (fieldY w)) ∧
  BitwiseEffect (· ||| ·) .op8XY1 ∧ BitwiseEffect (· &&& ·) .op8XY2 ∧ BitwiseEffect (· ^^^ ·) .op8XY3

/-- R166: 8XY4 leaves the carry out of bit 7 in VF, and the sum modulo 256 in V[X] unless X is F. -/
def Obligations.AddSetsCarry : Prop :=
  RowDecodes 0xF00F 0x8004 (fun w => .op8XY4 (fieldX w) (fieldY w)) ∧
  ∀ (x y : Nibble) (s : State), ∃ t, exec (.op8XY4 x y) s = .next t ∧
    t.readV 0xF = (if 255 < (s.readV x).toNat + (s.readV y).toNat then 1 else 0) ∧
    (x ≠ 0xF → (t.readV x).toNat = ((s.readV x).toNat + (s.readV y).toNat) % 256) ∧
    t.pc = s.pc ∧ Frame { regs := [x, 0xF] } s t

/-- R167: 8XY5 writes the no-borrow flag first and then subtracts, reading the registers after the flag write; the four
cases of X and Y being F come out as R167 lists them. -/
def Obligations.SubtractSetsNoBorrow : Prop :=
  RowDecodes 0xF00F 0x8005 (fun w => .op8XY5 (fieldX w) (fieldY w)) ∧
  ∀ (x y : Nibble) (s : State),
    let a := (s.readV x).toNat
    let b := (s.readV y).toNat
    let flag : Nat := if b ≤ a then 1 else 0
    ∃ t, exec (.op8XY5 x y) s = .next t ∧
      (x ≠ 0xF → y ≠ 0xF → ((t.readV x).toNat : Int) = ((a : Int) - b) % 256 ∧ (t.readV 0xF).toNat = flag) ∧
      (x = 0xF → y ≠ 0xF → ((t.readV 0xF).toNat : Int) = ((flag : Int) - b) % 256) ∧
      (x ≠ 0xF → y = 0xF → ((t.readV x).toNat : Int) = ((a : Int) - flag) % 256 ∧ (t.readV 0xF).toNat = flag) ∧
      (x = 0xF → y = 0xF → t.readV 0xF = 0) ∧
      t.pc = s.pc ∧ Frame { regs := [x, 0xF] } s t

/-- R169: 8XY7 is the subtraction the other way round, V[Y] - V[X], with its own four cases. -/
def Obligations.ReverseSubtractSetsNoBorrow : Prop :=
  RowDecodes 0xF00F 0x8007 (fun w => .op8XY7 (fieldX w) (fieldY w)) ∧
  ∀ (x y : Nibble) (s : State),
    let a := (s.readV x).toNat
    let b := (s.readV y).toNat
    let flag : Nat := if a ≤ b then 1 else 0
    ∃ t, exec (.op8XY7 x y) s = .next t ∧
      (x ≠ 0xF → y ≠ 0xF → ((t.readV x).toNat : Int) = ((b : Int) - a) % 256 ∧ (t.readV 0xF).toNat = flag) ∧
      (x = 0xF → y ≠ 0xF → ((t.readV 0xF).toNat : Int) = ((b : Int) - flag) % 256) ∧
      (x ≠ 0xF → y = 0xF → ((t.readV x).toNat : Int) = ((flag : Int) - a) % 256 ∧ (t.readV 0xF).toNat = flag) ∧
      (x = 0xF → y = 0xF → t.readV 0xF = 0) ∧
      t.pc = s.pc ∧ Frame { regs := [x, 0xF] } s t

/-- R168: 8XY6 shifts V[Y] on CHIP8, V[X] on SCHIP, right by one; VF is the bit shifted out, also when X is F. -/
def Obligations.ShiftRightMovesOutBitZero : Prop :=
  RowDecodes 0xF00F 0x8006 (fun w => .op8XY6 (fieldX w) (fieldY w)) ∧
  ∀ (x y : Nibble) (s : State),
    let source := if s.cfg.variant = .chip8 then (s.readV y).toNat else (s.readV x).toNat
    ∃ t, exec (.op8XY6 x y) s = .next t ∧ (t.readV 0xF).toNat = source % 2 ∧
      (x ≠ 0xF → (t.readV x).toNat = source / 2) ∧ t.pc = s.pc ∧ Frame { regs := [x, 0xF] } s t

/-- R170: 8XYE shifts V[Y] on CHIP8, V[X] on SCHIP, left by one; VF is the bit shifted out, also when X is F. -/
def Obligations.ShiftLeftMovesOutBitSeven : Prop :=
  RowDecodes 0xF00F 0x800E (fun w => .op8XYE (fieldX w) (fieldY w)) ∧
  ∀ (x y : Nibble) (s : State),
    let source := if s.cfg.variant = .chip8 then (s.readV y).toNat else (s.readV x).toNat
    ∃ t, exec (.op8XYE x y) s = .next t ∧ (t.readV 0xF).toNat = source / 128 ∧
      (x ≠ 0xF → (t.readV x).toNat = source * 2 % 256) ∧ t.pc = s.pc ∧ Frame { regs := [x, 0xF] } s t

/-- R171: CXNN leaves the step's random byte AND NN in V[X], for every byte; a step request that carries the byte runs it so. -/
def Obligations.RandomByteIsMasked : Prop :=
  RowDecodes 0xF000 0xC000 (fun w => .opCXNN (fieldX w) (fieldNN w)) ∧
  (∀ (x : Nibble) (nn : Byte) (s : State), ∃ t, exec (.opCXNN x nn) s = .next t ∧ t.readV x = s.rnd &&& nn ∧
    t.pc = s.pc ∧ Frame { regs := [x] } s t) ∧
  ∀ (x : Nibble) (nn rnd : Byte) (key : Word) (rest : List Request) (s : State),
    s.inbox = .step key rnd :: rest → s.runState = .running → s.pc.toNat ≤ 0xFFD →
    decodeWord s.fetchWord = .opCXNN x nn → ∃ t, step s = .next t ∧ t.readV x = rnd &&& nn

/-! ## Index register and memory -/

/-- R200, R201, R202: ANNN loads NNN into I, FX1E adds V[X] modulo 2^16, FX29 multiplies the whole of V[X] by 5; VF is not
written. -/
def Obligations.IndexLoadsAndAdds : Prop :=
  RowDecodes 0xF000 0xA000 (fun w => .opANNN (fieldNNN w)) ∧
  RowDecodes 0xF0FF 0xF01E (fun w => .opFX1E (fieldX w)) ∧ RowDecodes 0xF0FF 0xF029 (fun w => .opFX29 (fieldX w)) ∧
  (∀ (nnn : Addr12) (s : State), ∃ t, exec (.opANNN nnn) s = .next t ∧ t.I.toNat = nnn.toNat ∧ t.pc = s.pc ∧
    Frame { index := true } s t) ∧
  ∀ (x : Nibble) (s : State),
    (∃ t, exec (.opFX1E x) s = .next t ∧ t.I.toNat = (s.I.toNat + (s.readV x).toNat) % 65536 ∧ t.pc = s.pc ∧
      Frame { index := true } s t) ∧
    (∃ t, exec (.opFX29 x) s = .next t ∧ t.I.toNat = (s.readV x).toNat * 5 ∧ t.pc = s.pc ∧
      Frame { index := true } s t)

/-- R203: FX33 stores the three decimal digits of V[X] at I, I+1, I+2 and no other byte; with I above 0xFFD it faults. -/
def Obligations.BcdStoresThreeDigits : Prop :=
  RowDecodes 0xF0FF 0xF033 (fun w => .opFX33 (fieldX w)) ∧
  ∀ (x : Nibble) (s : State),
    (0xFFD < s.I.toNat → exec (.opFX33 x) s = .next (s.raise .memOutOfBounds)) ∧
    (s.I.toNat ≤ 0xFFD → ∃ t, exec (.opFX33 x) s = .next t ∧
      (s.mem.wf = true →
        (t.mem.read s.I.toNat).toNat = (s.readV x).toNat / 100 ∧
        (t.mem.read (s.I.toNat + 1)).toNat = (s.readV x).toNat / 10 % 10 ∧
        (t.mem.read (s.I.toNat + 2)).toNat = (s.readV x).toNat % 10) ∧
      t.pc = s.pc ∧ Frame { mem := some (s.I.toNat, 3) } s t)

/-- R204: FX55 stores V0..VX from I up and no other byte, and on CHIP8 leaves I just past them; a range that passes 0xFFF
faults. -/
def Obligations.StoreRegistersFromI : Prop :=
  RowDecodes 0xF0FF 0xF055 (fun w => .opFX55 (fieldX w)) ∧
  ∀ (x : Nibble) (s : State),
    (0xFFF < s.I.toNat + x.toNat → exec (.opFX55 x) s = .next (s.raise .memOutOfBounds)) ∧
    (s.I.toNat + x.toNat ≤ 0xFFF → ∃ t, exec (.opFX55 x) s = .next t ∧
      (s.mem.wf = true → ∀ k, k ≤ x.toNat → t.mem.read (s.I.toNat + k) = s.readV (BitVec.ofNat 4 k)) ∧
      t.I.toNat = (if s.cfg.variant = .chip8 then s.I.toNat + x.toNat + 1 else s.I.toNat) ∧
      t.pc = s.pc ∧ Frame { mem := some (s.I.toNat, x.toNat + 1), index := true } s t)

/-- R205: FX65 loads V0..VX from I up, registers above X keep their values, and on CHIP8 I ends just past the block; a range
that passes 0xFFF faults. -/
def Obligations.LoadRegistersFromI : Prop :=
  RowDecodes 0xF0FF 0xF065 (fun w => .opFX65 (fieldX w)) ∧
  ∀ (x : Nibble) (s : State),
    (0xFFF < s.I.toNat + x.toNat → exec (.opFX65 x) s = .next (s.raise .memOutOfBounds)) ∧
    (s.I.toNat + x.toNat ≤ 0xFFF → ∃ t, exec (.opFX65 x) s = .next t ∧
      (∀ k, k ≤ x.toNat → t.readV (BitVec.ofNat 4 k) = s.mem.read (s.I.toNat + k)) ∧
      (∀ r : Nibble, x.toNat < r.toNat → t.readV r = s.readV r) ∧
      t.I.toNat = (if s.cfg.variant = .chip8 then s.I.toNat + x.toNat + 1 else s.I.toNat) ∧
      t.pc = s.pc ∧ Frame { regs := regsThrough x, index := true } s t)

/-- Code stored by FX55 is what the next fetch from those bytes reads, with no delay (R59, R61, R300). -/
def Obligations.StoredCodeIsFetchedNext : Prop :=
  ∀ (x : Nibble) (s : State), s.mem.wf = true → s.I.toNat + x.toNat ≤ 0xFFF →
    ∃ t, exec (.opFX55 x) s = .next t ∧ ∀ k, k + 1 ≤ x.toNat →
      (t.setPc (s.I + BitVec.ofNat 16 k)).fetchWord =
        wordOfBytes (s.readV (BitVec.ofNat 4 k)) (s.readV (BitVec.ofNat 4 (k + 1)))

/-! ## Timers, keys, no-op -/

/-- R230, R231, R232: FX07 reads DT, FX15 writes DT, FX18 writes ST; `should_play_sound` does not change. -/
def Obligations.TimerReadsAndWrites : Prop :=
  RowDecodes 0xF0FF 0xF007 (fun w => .opFX07 (fieldX w)) ∧ RowDecodes 0xF0FF 0xF015 (fun w => .opFX15 (fieldX w)) ∧
  RowDecodes 0xF0FF 0xF018 (fun w => .opFX18 (fieldX w)) ∧
  ∀ (x : Nibble) (s : State),
    (∃ t, exec (.opFX07 x) s = .next t ∧ t.readV x = s.DT ∧ t.pc = s.pc ∧ Frame { regs := [x] } s t) ∧
    (∃ t, exec (.opFX15 x) s = .next t ∧ t.DT = s.readV x ∧ t.pc = s.pc ∧ Frame { dt := true } s t) ∧
    (∃ t, exec (.opFX18 x) s = .next t ∧ t.ST = s.readV x ∧ t.pc = s.pc ∧ Frame { st := true } s t)

/-- R233: the four cases of FX0A: no key and no latch, a key to latch (the smallest), the latched key held, and released. -/
def Obligations.KeyWaitLatchesThenReleases : Prop :=
  RowDecodes 0xF0FF 0xF00A (fun w => .opFX0A (fieldX w)) ∧
  ∀ (x : Nibble) (s : State),
    (s.kwActive = false → (∀ k < 16, s.key.getLsbD k = false) →
      ∃ t, exec (.opFX0A x) s = .next t ∧ t.pc = s.pc - 2 ∧ Frame {} s t) ∧
    (∀ k < 16, s.kwActive = false → s.key.getLsbD k = true → (∀ j < k, s.key.getLsbD j = false) →
      ∃ t, exec (.opFX0A x) s = .next t ∧ t.pc = s.pc - 2 ∧ t.kwActive = true ∧ t.kwKey.toNat = k ∧
        Frame { latch := true } s t) ∧
    (s.kwActive = true → s.key.getLsbD s.kwKey.toNat = true →
      ∃ t, exec (.opFX0A x) s = .next t ∧ t.pc = s.pc - 2 ∧ Frame {} s t) ∧
    (s.kwActive = true → s.key.getLsbD s.kwKey.toNat = false →
      ∃ t, exec (.opFX0A x) s = .next t ∧ t.pc = s.pc ∧ (t.readV x).toNat = s.kwKey.toNat ∧ t.kwActive = false ∧
        t.kwKey = s.kwKey ∧ Frame { regs := [x], latch := true } s t)

/-- FX0A never completes while no key is pressed, nor while the latched key stays held: any number of steps that sample
such keypads leaves pc, the registers and the latch as they are (R234). -/
def Obligations.KeyWaitHangsWithoutInput : Prop :=
  ∀ (inputs : List (Word × Byte)) (x : Nibble) (s : State),
    s.inbox = inputs.map (fun p => Request.step p.1 p.2) → s.runState = .running → s.pc.toNat ≤ 0xFFD →
    decodeWord s.fetchWord = .opFX0A x →
    (s.kwActive = false ∧ (∀ p ∈ inputs, p.1 = 0) ∨
      s.kwActive = true ∧ ∀ p ∈ inputs, p.1.getLsbD s.kwKey.toNat = true) →
    ∃ t : State, Host.Core.run Sys2Proof.core inputs.length s = .next t ∧ t.pc = s.pc ∧ t.V = s.V ∧ t.kwActive = s.kwActive ∧
      t.kwKey = s.kwKey ∧ t.mem = s.mem ∧ t.runState = .running

/-- A key pressed in one step and released in a later one completes FX0A with its index, the tick between them counting the
timers down meanwhile (R233, R234, R262). -/
def Obligations.KeyWaitCompletesAfterRelease : Prop :=
  ∀ (x k : Nibble) (r1 r2 : Byte) (s : State),
    s.inbox = [.step (BitVec.twoPow 16 k.toNat) r1, .tick, .step 0 r2] → s.runState = .running → s.kwActive = false →
    s.pc.toNat ≤ 0xFFD → decodeWord s.fetchWord = .opFX0A x →
    ∃ t : State, Host.Core.run Sys2Proof.core 3 s = .next t ∧ (t.readV x).toNat = k.toNat ∧ t.kwActive = false ∧
      t.pc = s.pc + 2 ∧ t.DT.toNat = s.DT.toNat - 1 ∧ t.ST.toNat = s.ST.toNat - 1

/-- R86: a no-op changes nothing at all; only the fetch's advance of pc remains, and `draw_needed` is not set. -/
def Obligations.NoOpChangesNothing : Prop :=
  (∀ (w : Word) (s : State), exec (.nop w) s = .next s) ∧
  ∀ (s : State) (key : Word) (rnd : Byte) (rest : List Request) (w : Word),
    s.inbox = .step key rnd :: rest → s.runState = .running → s.pc.toNat ≤ 0xFFD → decodeWord s.fetchWord = .nop w →
    step s = .next { s with inbox := rest, key := key, rnd := rnd, stepDrew := false, pc := s.pc + 2 }

/-! ## The whole instruction set -/

/-- R91: when an instruction does not fault, everything outside its footprint is as before, every byte of memory it does not
store to included; pc may change. -/
def Obligations.InstructionsStayInTheirFootprint : Prop :=
  ∀ (i : Instr) (s : State), faultOf i s = none → ∃ t, exec i s = .next t ∧ Frame (footprint i s) s t

/-- The variant changes the behaviour of seven instructions only: every other one gives the same result under both (R2, R41). -/
def Obligations.VariantMattersOnlyAtItsQuirks : Prop :=
  ∀ (i : Instr) (v : Variant) (s : State), variantDependent i = false →
    exec i (s.withVariant v) = mapNext (State.withVariant v) (exec i s)

/-- Only EX9E, EXA1 and FX0A read the keypad, and only CXNN the random byte: no other result depends on them (R35, R171). -/
def Obligations.InputsReachOnlyTheirReaders : Prop :=
  ∀ (i : Instr) (s : State),
    (readsKeypad i = false → ∀ k, exec i (s.withKey k) = mapNext (State.withKey k) (exec i s)) ∧
    (readsRandom i = false → ∀ r, exec i (s.withRnd r) = mapNext (State.withRnd r) (exec i s))

/-! ## The host's requests -/

/-- R262, R263, R264: a tick counts both timers down to 0 and no further and then recomputes `should_play_sound`; in Quit it
does nothing; it changes nothing else. -/
def Obligations.TickCountsDown : Prop :=
  ∀ (s : State) (rest : List Request), s.inbox = .tick :: rest →
    (s.runState = .quit → step s = .next { s with inbox := rest }) ∧
    (s.runState ≠ .quit → ∃ t, step s = .next t ∧ t.DT.toNat = s.DT.toNat - 1 ∧ t.ST.toNat = s.ST.toNat - 1 ∧
      (t.shouldPlaySound = true ↔ 0 < t.ST.toNat) ∧
      t = { s with inbox := rest, DT := t.DT, ST := t.ST, shouldPlaySound := t.shouldPlaySound })

/-- R260: a step request outside Running changes nothing but `step_drew`, which it clears; no key is sampled. The model's
choices: an empty queue is a step request too (log 6), and the port fields keep their values (log 18). -/
def Obligations.StoppedEngineIgnoresSteps : Prop :=
  ∀ s : State, s.runState ≠ .running →
    (∀ key rnd rest, s.inbox = .step key rnd :: rest → step s = .next { s with inbox := rest, stepDrew := false }) ∧
    (s.inbox = [] → step s = .next { s with stepDrew := false })

/-- The host's changes of run state: Running and Paused go to any other state, `fault_cause` untouched; Quit is left by no
such request (R259, R261); a request for the present state changes nothing (the model's choice, log 14). -/
def Obligations.HostChangesRunState : Prop :=
  ∀ (s : State) (wanted : RunState) (rest : List Request), s.inbox = .hostRunState wanted :: rest →
    (s.runState ≠ .quit → step s = .next { s with inbox := rest, runState := wanted }) ∧
    (s.runState = .quit → wanted ≠ .quit → step s = .refused .quitIsFinal) ∧
    (s.runState = .quit → wanted = .quit → step s = .next { s with inbox := rest })

/-- R269: the host clears `draw_needed`; no instruction does. -/
def Obligations.OnlyTheHostClearsDrawNeeded : Prop :=
  (∀ (s : State) (rest : List Request), s.inbox = .hostClearDraw :: rest →
    step s = .next { s with inbox := rest, drawNeeded := false }) ∧
  ∀ (i : Instr) (s t : State), exec i s = .next t → s.drawNeeded = true → t.drawNeeded = true

/-- R44, R292, R293: after the load of a ROM of at most 3584 bytes every element has its reset value: FONT at 0, the ROM at
0x200, every other byte, register, timer, latch and pixel 0, pc 0x200, Running. The model's choices (log 11): the
configuration stays, and a load is served in every run state, Quit included. -/
def Obligations.LoadLeavesTheResetState : Prop :=
  ∀ (s : State) (rom : List Byte) (rest : List Request), s.inbox = .hostLoad rom :: rest → rom.length ≤ 3584 →
    ∃ t, step s = .next t ∧
      (∀ (a : Nat) (h : a < 80), t.mem.read a = s.cfg.font[a]) ∧ (∀ a, 0x50 ≤ a → a < 0x200 → t.mem.read a = 0) ∧
      (∀ (j : Nat) (h : j < rom.length), t.mem.read (0x200 + j) = rom[j]) ∧
      (∀ a, 0x200 + rom.length ≤ a → a ≤ 0xFFF → t.mem.read a = 0) ∧
      (∀ r, t.readV r = 0) ∧ t.I = 0 ∧ t.pc = 0x200 ∧ (∀ (k : Nat) (h : k < 12), t.stack[k] = 0) ∧ t.SP = 0 ∧ t.DT = 0 ∧
      t.ST = 0 ∧ (∀ x y, t.disp.pixel x y = false) ∧ t.kwActive = false ∧ t.kwKey = 0 ∧ t.drawNeeded = false ∧
      t.stepDrew = false ∧ t.runState = .running ∧ t.faultCause = .none ∧ t.shouldPlaySound = false ∧ t.cfg = s.cfg

/-- A restore is refused exactly when the saved state breaks the invariants of R46 (or its memory is not one of the block's,
the model's form of R50, log 12), or when it would leave Quit or change the fault cause there (R254, R259; log 12); else
reading the state back gives what was restored, and VARIANT, FONT, the inputs and `step_drew` stay (log 12). -/
def Obligations.RestoreReplacesTheWholeState : Prop :=
  ∀ (s : State) (p : Snapshot) (rest : List Request), s.inbox = .hostSnapshotWrite p :: rest →
    (¬ (p.SP ≤ 12 ∧ p.kwKey ≤ 15 ∧ p.disp.length = 64 * 32 ∧ p.mem.wf = true) → step s = .refused .snapshotInvalid) ∧
    (p.SP ≤ 12 ∧ p.kwKey ≤ 15 ∧ p.disp.length = 64 * 32 ∧ p.mem.wf = true →
      (s.runState = .quit ∧ (p.runState ≠ .quit ∨ p.faultCause ≠ s.faultCause) → step s = .refused .quitIsFinal) ∧
      (s.runState ≠ .quit ∨ p.runState = .quit ∧ p.faultCause = s.faultCause → ∃ t, step s = .next t ∧ t.save = p ∧
        t.cfg = s.cfg ∧ t.key = s.key ∧ t.rnd = s.rnd ∧ t.stepDrew = s.stepDrew ∧ t.inbox = rest ∧ t.draws = s.draws))

/-- Saving a state and restoring it at once changes nothing (R296). -/
def Obligations.RestoreInvertsSave : Prop :=
  ∀ s : State, s.mem.wf = true → s.restore s.save = .next s

/-! ## Reset and invariants -/

/-- State.reset is the load of the empty ROM, with the values of R44, and the model's own choices beside them: CHIP8 (log 1),
the conventional font (log 2), no key (log 4), nothing queued or drawn (logs 5, 6). -/
def Obligations.ResetIsTheEmptyLoad : Prop :=
  State.reset.load [] = .next State.reset ∧ State.reset.mem = [] ∧ State.reset.pc = 0x200 ∧
  State.reset.runState = .running ∧ State.reset.faultCause = .none ∧ State.reset.SP = 0 ∧
  State.reset.cfg = { variant := .chip8, font := defaultFont } ∧ State.reset.key = 0 ∧ State.reset.inbox = [] ∧
  State.reset.draws = 0 ∧ State.reset.mem.read 0x000 = 0xF0 ∧ State.reset.mem.read 0x04F = 0x80 ∧
  State.reset.mem.read 0x050 = 0

/-- The reset state meets every invariant stated below. -/
def Obligations.ResetMeetsTheInvariants : Prop :=
  State.reset.mem.wf = true ∧ NoRestoreQueued State.reset ∧ PcInRange State.reset ∧ FaultQuits State.reset ∧
  NotFaulted State.reset

/-- Every step keeps memory in its canonical form: addresses rise, lie below 4096, and no entry is what an unlisted address
reads as (R50, R55). -/
def Obligations.StepKeepsMemoryCanonical : Prop :=
  ∀ s t : State, s.mem.wf = true → step s = .next t → t.mem.wf = true

/-- R27: with no restore queued, every step keeps pc at most 0x10FE while the engine may still step, at most 0x1100 after a
fault, and every return address at most 0xFFF; so pc never wraps. -/
def Obligations.StepKeepsPcInRange : Prop :=
  ∀ s t : State, NoRestoreQueued s → PcInRange s → step s = .next t → NoRestoreQueued t ∧ PcInRange t

/-- With no restore queued, every step keeps a recorded fault in Quit (R252, R254, R261). -/
def Obligations.StepKeepsFaultsInQuit : Prop :=
  ∀ s t : State, NoRestoreQueued s → FaultQuits s → step s = .next t → FaultQuits t

/-- A step serves the oldest queued request, in the state without it, or, with nothing queued, a step request: one event a step
(R273), on the schedule that is the model's choice (log 6). Its next state has lost that one request and no other, and has
the same VARIANT and FONT (R41), which a load and a restore keep by the model's choice (logs 11, 12). -/
def Obligations.StepServesOneRequestOnly : Prop :=
  ∀ s : State,
    (∀ r rest, s.inbox = r :: rest → step s = serve r { s with inbox := rest }) ∧
    (s.inbox = [] → step s = unattendedStep s) ∧
    ∀ t, step s = .next t → t.inbox = s.inbox.tail ∧ t.cfg = s.cfg
end

