-- ==== Sys2Proof/Laws/Decode.lean ====
section
/-! SUPPORT. Fields and packing are inverse to each other; what decoding a packed word is, family by family. -/

namespace Sys2Proof

/-! ### The numbers behind the fields -/

theorem toNat_fieldHi (w : Word) : (fieldHi w).toNat = w.toNat / 4096 % 16 := by
  simp [fieldHi, Nat.shiftRight_eq_div_pow]
theorem toNat_fieldX (w : Word) : (fieldX w).toNat = w.toNat / 256 % 16 := by
  simp [fieldX, Nat.shiftRight_eq_div_pow]
theorem toNat_fieldY (w : Word) : (fieldY w).toNat = w.toNat / 16 % 16 := by
  simp [fieldY, Nat.shiftRight_eq_div_pow]
theorem toNat_fieldN (w : Word) : (fieldN w).toNat = w.toNat % 16 := by simp [fieldN]
theorem toNat_fieldNN (w : Word) : (fieldNN w).toNat = w.toNat % 256 := by simp [fieldNN]
theorem toNat_fieldNNN (w : Word) : (fieldNNN w).toNat = w.toNat % 4096 := by simp [fieldNNN]
theorem toNat_highByte (w : Word) : (highByte w).toNat = w.toNat / 256 := by
  have := w.isLt
  simp only [highByte, BitVec.toNat_setWidth, BitVec.toNat_ushiftRight, Nat.shiftRight_eq_div_pow]
  omega
theorem toNat_lowByte (w : Word) : (lowByte w).toNat = w.toNat % 256 := by simp [lowByte]

theorem toNat_packXYN (hi x y n : Nibble) :
    (packXYN hi x y n).toNat = hi.toNat * 4096 + x.toNat * 256 + y.toNat * 16 + n.toNat := by
  have := hi.isLt; have := x.isLt; have := y.isLt; have := n.isLt
  simp only [packXYN, BitVec.toNat_ofNat]; omega
theorem toNat_packXNN (hi x : Nibble) (nn : Byte) :
    (packXNN hi x nn).toNat = hi.toNat * 4096 + x.toNat * 256 + nn.toNat := by
  have := hi.isLt; have := x.isLt; have := nn.isLt
  simp only [packXNN, BitVec.toNat_ofNat]; omega
theorem toNat_packNNN (hi : Nibble) (nnn : Addr12) : (packNNN hi nnn).toNat = hi.toNat * 4096 + nnn.toNat := by
  have := hi.isLt; have := nnn.isLt
  simp only [packNNN, BitVec.toNat_ofNat]; omega
theorem toNat_wordOfBytes (hi lo : Byte) : (wordOfBytes hi lo).toNat = hi.toNat * 256 + lo.toNat := by
  have := hi.isLt; have := lo.isLt
  simp only [wordOfBytes, BitVec.toNat_ofNat]; omega

/-! ### Bytes of a word -/

theorem wordOfBytes_bytes (w : Word) : wordOfBytes (highByte w) (lowByte w) = w := by
  apply BitVec.eq_of_toNat_eq
  rw [toNat_wordOfBytes, toNat_highByte, toNat_lowByte]; omega

theorem decode_bytes (w : Word) (rest : List Byte) :
    decode (highByte w :: lowByte w :: rest) = .ok (decodeWord w, rest) := by
  rw [decode, wordOfBytes_bytes]

/-! ### Fields of a packed word -/

section
variable (hi x y n : Nibble) (nn : Byte) (nnn : Addr12)

theorem fieldHi_packXYN : fieldHi (packXYN hi x y n) = hi := by
  apply BitVec.eq_of_toNat_eq; rw [toNat_fieldHi, toNat_packXYN]; omega
theorem fieldX_packXYN : fieldX (packXYN hi x y n) = x := by
  apply BitVec.eq_of_toNat_eq; rw [toNat_fieldX, toNat_packXYN]; omega
theorem fieldY_packXYN : fieldY (packXYN hi x y n) = y := by
  apply BitVec.eq_of_toNat_eq; rw [toNat_fieldY, toNat_packXYN]; omega
theorem fieldN_packXYN : fieldN (packXYN hi x y n) = n := by
  apply BitVec.eq_of_toNat_eq; rw [toNat_fieldN, toNat_packXYN]; omega
theorem fieldHi_packXNN : fieldHi (packXNN hi x nn) = hi := by
  apply BitVec.eq_of_toNat_eq; rw [toNat_fieldHi, toNat_packXNN]; omega
theorem fieldX_packXNN : fieldX (packXNN hi x nn) = x := by
  apply BitVec.eq_of_toNat_eq; rw [toNat_fieldX, toNat_packXNN]; omega
theorem fieldNN_packXNN : fieldNN (packXNN hi x nn) = nn := by
  apply BitVec.eq_of_toNat_eq; rw [toNat_fieldNN, toNat_packXNN]; omega
theorem fieldHi_packNNN : fieldHi (packNNN hi nnn) = hi := by
  apply BitVec.eq_of_toNat_eq; rw [toNat_fieldHi, toNat_packNNN]; omega
theorem fieldNNN_packNNN : fieldNNN (packNNN hi nnn) = nnn := by
  apply BitVec.eq_of_toNat_eq; rw [toNat_fieldNNN, toNat_packNNN]; omega
end

/-- A word is its four nibbles. -/
theorem packXYN_fields (w : Word) : packXYN (fieldHi w) (fieldX w) (fieldY w) (fieldN w) = w := by
  apply BitVec.eq_of_toNat_eq
  have := w.isLt
  rw [toNat_packXYN, toNat_fieldHi, toNat_fieldX, toNat_fieldY, toNat_fieldN]; omega
/-- A word is its high nibble, X and NN. -/
theorem packXNN_fields (w : Word) : packXNN (fieldHi w) (fieldX w) (fieldNN w) = w := by
  apply BitVec.eq_of_toNat_eq
  have := w.isLt
  rw [toNat_packXNN, toNat_fieldHi, toNat_fieldX, toNat_fieldNN]; omega
/-- A word is its high nibble and NNN. -/
theorem packNNN_fields (w : Word) : packNNN (fieldHi w) (fieldNNN w) = w := by
  apply BitVec.eq_of_toNat_eq
  have := w.isLt
  rw [toNat_packNNN, toNat_fieldHi, toNat_fieldNNN]; omega

/-! ### The masks of the opcode table -/

/-- The packed word bit by bit: each nibble sits at its place. -/
theorem packXYN_eq_or (hi x y n : Nibble) :
    packXYN hi x y n = (((hi.setWidth 16 <<< 4 ||| x.setWidth 16) <<< 4 ||| y.setWidth 16) <<< 4) ||| n.setWidth 16 := by
  have := hi.isLt; have := x.isLt; have := y.isLt; have := n.isLt
  have step : ∀ (a : Word) (b : Nibble), a.toNat < 4096 → (a <<< 4 ||| b.setWidth 16).toNat = a.toNat * 16 + b.toNat := by
    intro a b ha
    have hb := b.isLt
    rw [BitVec.toNat_or, BitVec.toNat_shiftLeft, BitVec.toNat_setWidth, Nat.mod_eq_of_lt (a := b.toNat) (by omega),
      Nat.mod_eq_of_lt (by rw [Nat.shiftLeft_eq]; omega), ← Nat.shiftLeft_add_eq_or_of_lt (i := 4) (by omega), Nat.shiftLeft_eq]
  have e0 : (hi.setWidth 16).toNat = hi.toNat := by rw [BitVec.toNat_setWidth]; omega
  have e1 := step (hi.setWidth 16) x (by omega)
  have e2 := step (hi.setWidth 16 <<< 4 ||| x.setWidth 16) y (by omega)
  have e3 := step ((hi.setWidth 16 <<< 4 ||| x.setWidth 16) <<< 4 ||| y.setWidth 16) n (by omega)
  apply BitVec.eq_of_toNat_eq
  rw [toNat_packXYN, e3, e2, e1, e0]; omega

/-- Y and N side by side are NN. -/
theorem packXYN_eq_packXNN (w : Word) (hi x : Nibble) : packXYN hi x (fieldY w) (fieldN w) = packXNN hi x (fieldNN w) := by
  apply BitVec.eq_of_toNat_eq
  rw [toNat_packXYN, toNat_packXNN, toNat_fieldY, toNat_fieldN, toNat_fieldNN]; omega

theorem and_mask (m : Word) (w : Word) : w &&& m = packXYN (fieldHi w) (fieldX w) (fieldY w) (fieldN w) &&& m := by
  rw [packXYN_fields]

/-- Masking a packed word nibble by nibble. -/
theorem packXYN_and (a b c d a' b' c' d' : Nibble) :
    packXYN a b c d &&& packXYN a' b' c' d' = packXYN (a &&& a') (b &&& b') (c &&& c') (d &&& d') := by
  simp only [packXYN_eq_or]
  ext i hi
  simp only [BitVec.getElem_and, BitVec.getElem_or, BitVec.getElem_shiftLeft, BitVec.getElem_setWidth, BitVec.getLsbD_and]
  interval_cases i <;> simp

theorem nibble_and_all (a : Nibble) : a &&& 15#4 = a := by revert a; decide

/-- `op & 0xF000` keeps the high nibble. -/
theorem and_F000 (w : Word) : w &&& 0xF000 = packXYN (fieldHi w) 0 0 0 := by
  rw [and_mask, show (0xF000 : Word) = packXYN 0xF 0 0 0 from rfl, packXYN_and]
  simp [nibble_and_all]
/-- `op & 0xF00F` keeps the high nibble and N. -/
theorem and_F00F (w : Word) : w &&& 0xF00F = packXYN (fieldHi w) 0 0 (fieldN w) := by
  rw [and_mask, show (0xF00F : Word) = packXYN 0xF 0 0 0xF from rfl, packXYN_and]
  simp [nibble_and_all]
/-- `op & 0xF0FF` keeps the high nibble and NN. -/
theorem and_F0FF (w : Word) : w &&& 0xF0FF = packXNN (fieldHi w) 0 (fieldNN w) := by
  rw [and_mask, ← packXYN_eq_packXNN, show (0xF0FF : Word) = packXYN 0xF 0 0xF 0xF from rfl, packXYN_and]
  simp [nibble_and_all]

/-- The words of a row keyed on the high nibble. -/
theorem and_F000_eq_iff (w : Word) (h : Nibble) : w &&& 0xF000 = packXYN h 0 0 0 ↔ fieldHi w = h := by
  rw [and_F000]
  exact ⟨fun e => by simpa [fieldHi_packXYN] using congrArg fieldHi e, fun e => by rw [e]⟩

/-- The words of a row keyed on the high nibble and N. -/
theorem and_F00F_eq_iff (w : Word) (h n : Nibble) : w &&& 0xF00F = packXYN h 0 0 n ↔ fieldHi w = h ∧ fieldN w = n := by
  rw [and_F00F]
  constructor
  · intro e
    exact ⟨by simpa [fieldHi_packXYN] using congrArg fieldHi e, by simpa [fieldN_packXYN] using congrArg fieldN e⟩
  · rintro ⟨e1, e2⟩; rw [e1, e2]

/-- The words of a row keyed on the high nibble and NN. -/
theorem and_F0FF_eq_iff (w : Word) (h : Nibble) (nn : Byte) :
    w &&& 0xF0FF = packXNN h 0 nn ↔ fieldHi w = h ∧ fieldNN w = nn := by
  rw [and_F0FF]
  constructor
  · intro e
    exact ⟨by simpa [fieldHi_packXNN] using congrArg fieldHi e, by simpa [fieldNN_packXNN] using congrArg fieldNN e⟩
  · rintro ⟨e1, e2⟩; rw [e1, e2]

end Sys2Proof
end

