-- ==== Sys2Proof/Laws/Memory.lean ====
section
/-! SUPPORT. The laws of memory: a read after a write, and every operation keeps the canonical form. -/

namespace Sys2Proof.Machine.Memory

@[simp] theorem read_nil (a : Nat) : read [] a = unlisted a := rfl

theorem read_cons (k : Nat) (v : Byte) (m : Memory) (a : Nat) :
    read ((k, v) :: m) a = if a = k then v else read m a := rfl

/-- Reading through a listing of one byte: that byte at its address, the rest of memory elsewhere. -/
theorem read_cell_append (a b : Nat) (v : Byte) (m : Memory) (h : b = a → v = unlisted a → read m a = unlisted a) :
    read (cell a v ++ m) b = if b = a then v else read m b := by
  unfold cell
  split
  · next hv => split
               · next e => subst e; simp [h rfl hv, hv]
               · simp
  · simp [read_cons]

/-! ### The canonical form -/

theorem wfFrom_cons {lo k : Nat} {v : Byte} {m : Memory} :
    wfFrom lo ((k, v) :: m) = true ↔ lo ≤ k ∧ k < 4096 ∧ v ≠ unlisted k ∧ wfFrom (k + 1) m = true := by
  simp [wfFrom, and_assoc]

theorem wfFrom_mono {lo lo' : Nat} {m : Memory} (h : wfFrom lo m = true) (hl : lo' ≤ lo) : wfFrom lo' m = true := by
  cases m with
  | nil => rfl
  | cons c m => obtain ⟨k, v⟩ := c; rw [wfFrom_cons] at h ⊢; exact ⟨by omega, h.2⟩

/-- An address below every listed one reads as unlisted. -/
theorem read_of_lt {lo a : Nat} {m : Memory} (h : wfFrom lo m = true) (ha : a < lo) : read m a = unlisted a := by
  induction m generalizing lo with
  | nil => rfl
  | cons c m ih =>
    obtain ⟨k, v⟩ := c
    rw [wfFrom_cons] at h
    rw [read_cons, if_neg (by omega)]
    exact ih h.2.2.2 (by omega)

/-- A byte outside the 4096 of R50 is never listed. -/
theorem read_of_le {lo a : Nat} {m : Memory} (h : wfFrom lo m = true) (ha : 4096 ≤ a) : read m a = unlisted a := by
  induction m generalizing lo with
  | nil => rfl
  | cons c m ih =>
    obtain ⟨k, v⟩ := c
    rw [wfFrom_cons] at h
    rw [read_cons, if_neg (by omega)]
    exact ih h.2.2.2

theorem wfFrom_cell_append {lo a : Nat} {v : Byte} {m : Memory} (hlo : lo ≤ a) (ha : a < 4096)
    (h : wfFrom (a + 1) m = true) : wfFrom lo (cell a v ++ m) = true := by
  unfold cell
  split
  · exact wfFrom_mono h (by omega)
  · next hv => simpa [wfFrom_cons] using ⟨hlo, ha, hv, h⟩

theorem wfFrom_write {lo a : Nat} {v : Byte} {m : Memory} (h : wfFrom lo m = true) (hlo : lo ≤ a) (ha : a < 4096) :
    wfFrom lo (write m a v) = true := by
  induction m generalizing lo with
  | nil => simpa [write] using wfFrom_cell_append (m := []) hlo ha rfl
  | cons c m ih =>
    obtain ⟨k, w⟩ := c
    have hc := wfFrom_cons.1 h
    unfold write
    split
    · next hak => exact wfFrom_cell_append hlo ha (wfFrom_cons.2 ⟨by omega, hc.2⟩)
    · split
      · next e => subst e; exact wfFrom_cell_append hlo ha hc.2.2.2
      · exact wfFrom_cons.2 ⟨hc.1, hc.2.1, hc.2.2.1, ih hc.2.2.2 (by omega)⟩

/-- A write inside the address space keeps the canonical form. -/
theorem wf_write {m : Memory} (h : m.wf = true) {a : Nat} (ha : a < 4096) (v : Byte) : (m.write a v).wf = true :=
  wfFrom_write h (Nat.zero_le a) ha

/-- Storing a run of bytes inside the address space keeps the canonical form. -/
theorem wf_storeBytes {m : Memory} (h : m.wf = true) {a : Nat} {l : List Byte} (ha : a + l.length ≤ 4096) :
    (m.storeBytes a l).wf = true := by
  induction l generalizing m a with
  | nil => exact h
  | cons v l ih =>
    simp only [List.length_cons] at ha
    exact ih (wf_write h (by omega) v) (by omega)

/-! ### Read after write -/

theorem read_write_from {lo : Nat} {m : Memory} (h : wfFrom lo m = true) (a b : Nat) (v : Byte) :
    read (write m a v) b = if b = a then v else read m b := by
  induction m generalizing lo with
  | nil => simpa [write] using read_cell_append a b v [] (fun _ _ => rfl)
  | cons c m ih =>
    obtain ⟨k, w⟩ := c
    have hc := wfFrom_cons.1 h
    unfold write
    split
    · next hak =>
      exact read_cell_append a b v _ fun _ _ => read_of_lt (wfFrom_cons.2 ⟨Nat.succ_le_of_lt hak, hc.2⟩) (Nat.lt_succ_self a)
    · split
      · next e =>
        subst e
        rw [read_cell_append a b v m fun _ _ => read_of_lt hc.2.2.2 (Nat.lt_succ_self a), read_cons]
        split <;> rfl
      · next hne =>
        rw [read_cons, read_cons, ih hc.2.2.2]
        by_cases hb : b = k
        · have : k ≠ a := by omega
          simp [hb, this]
        · simp [hb]

/-- A read after a write: the byte written at its address, what was there before elsewhere. -/
theorem read_write {m : Memory} (h : m.wf = true) (a b : Nat) (v : Byte) :
    (m.write a v).read b = if b = a then v else m.read b := read_write_from h a b v

/-- A read after storing a run of bytes: the run inside it, what was there before outside it. -/
theorem read_storeBytes {m : Memory} (h : m.wf = true) {a : Nat} {l : List Byte} (ha : a + l.length ≤ 4096) (b : Nat) :
    (m.storeBytes a l).read b = if a ≤ b ∧ b < a + l.length then l.getD (b - a) 0 else m.read b := by
  induction l generalizing m a with
  | nil => rw [if_neg (by simp only [List.length_nil]; omega)]; rfl
  | cons v l ih =>
    simp only [List.length_cons] at ha
    rw [storeBytes, ih (wf_write h (by omega) v) (by omega), read_write h]
    by_cases hb : b = a
    · subst hb; simp
    · simp only [List.length_cons, hb, if_false]
      by_cases hi : a + 1 ≤ b ∧ b < a + 1 + l.length
      · obtain ⟨j, rfl⟩ : ∃ j, b = a + 1 + j := ⟨b - (a + 1), by omega⟩
        have e1 : a + 1 + j - (a + 1) = j := by omega
        have e2 : a + 1 + j - a = j + 1 := by omega
        rw [if_pos hi, if_pos (by omega), e1, e2, List.getD_cons_succ]
      · rw [if_neg hi, if_neg (by omega)]

/-- Storing leaves every byte outside the run alone, whatever the memory's form. -/
theorem read_write_other (m : Memory) {a b : Nat} (h : b ≠ a) (v : Byte) : (m.write a v).read b = m.read b := by
  have hcell : ∀ m', read (cell a v ++ m') b = read m' b := by
    intro m'; unfold cell; split <;> simp [read_cons, h]
  induction m with
  | nil => simpa [write] using hcell []
  | cons c m ih =>
    obtain ⟨k, w⟩ := c
    unfold write
    split
    · exact hcell _
    · split
      · next e => subst e; rw [hcell, read_cons, if_neg h]
      · rw [read_cons, read_cons, ih]

theorem read_storeBytes_outside (m : Memory) {a b : Nat} {l : List Byte} (h : b < a ∨ a + l.length ≤ b) :
    (m.storeBytes a l).read b = m.read b := by
  induction l generalizing m a with
  | nil => rfl
  | cons v l ih =>
    simp only [List.length_cons] at h
    rw [storeBytes, ih _ (by omega), read_write_other _ (by omega)]

/-! ### Equal reads, equal memories -/

/-- Two canonical memories that read the same at every address are the same data. -/
theorem wfFrom_ext {lo lo' : Nat} {m m' : Memory} (h : wfFrom lo m = true) (h' : wfFrom lo' m' = true)
    (e : ∀ a, read m a = read m' a) : m = m' := by
  induction m generalizing m' lo lo' with
  | nil =>
    cases m' with
    | nil => rfl
    | cons c m' =>
      obtain ⟨k, v⟩ := c
      have := e k
      rw [read_cons, if_pos rfl] at this
      exact absurd this.symm (wfFrom_cons.1 h').2.2.1
  | cons c m ih =>
    obtain ⟨k, v⟩ := c
    have hc := wfFrom_cons.1 h
    cases m' with
    | nil =>
      have := e k
      rw [read_cons, if_pos rfl] at this
      exact absurd this hc.2.2.1
    | cons c' m' =>
      obtain ⟨k', v'⟩ := c'
      have hc' := wfFrom_cons.1 h'
      have hk : k = k' := by
        rcases Nat.lt_trichotomy k k' with hlt | heq | hgt
        · have := e k
          rw [read_cons, if_pos rfl, read_cons, if_neg (by omega), read_of_lt hc'.2.2.2 (by omega)] at this
          exact absurd this hc.2.2.1
        · exact heq
        · have := e k'
          rw [read_cons, if_neg (by omega), read_of_lt hc.2.2.2 (by omega), read_cons, if_pos rfl] at this
          exact absurd this.symm hc'.2.2.1
      subst hk
      have hv : v = v' := by simpa [read_cons] using e k
      subst hv
      rw [ih hc.2.2.2 hc'.2.2.2 fun a => ?_]
      by_cases ha : a = k
      · subst ha; rw [read_of_lt hc.2.2.2 (Nat.lt_succ_self a), read_of_lt hc'.2.2.2 (Nat.lt_succ_self a)]
      · simpa [read_cons, ha] using e a

theorem ext {m m' : Memory} (h : m.wf = true) (h' : m'.wf = true) (e : ∀ a, m.read a = m'.read a) : m = m' :=
  wfFrom_ext h h' e

end Sys2Proof.Machine.Memory
end

