-- ==== Sys2Proof/Laws/State.lean ====
section
/-! SUPPORT. One lemma per field per update of State, so that no later proof unfolds a record update; and the few
updates that are another update at a fixed argument. -/

namespace Sys2Proof.Machine

namespace State

@[simp] theorem writeVF_eq (v : Byte) (s : State) : s.writeVF v = s.writeV 0xF v := rfl
@[simp] theorem readVF_eq (s : State) : s.readVF = s.readV 0xF := rfl
@[simp] theorem advance_eq (s : State) : s.advance = s.setPc (s.pc + 2) := rfl
@[simp] theorem rewind_eq (s : State) : s.rewind = s.setPc (s.pc - 2) := rfl
@[simp] theorem storeAtI_eq (l : List Byte) (s : State) : s.storeAtI l = s.setMem (s.mem.storeBytes s.I.toNat l) := rfl


/-! ### writeV -/

@[simp] theorem writeV_mem (x : Nibble) (v : Byte) (s : State) : (s.writeV x v).mem = s.mem := rfl
@[simp] theorem writeV_V (x : Nibble) (v : Byte) (s : State) : (s.writeV x v).V = s.V.set x.toNat v x.isLt := rfl
@[simp] theorem writeV_I (x : Nibble) (v : Byte) (s : State) : (s.writeV x v).I = s.I := rfl
@[simp] theorem writeV_pc (x : Nibble) (v : Byte) (s : State) : (s.writeV x v).pc = s.pc := rfl
@[simp] theorem writeV_stack (x : Nibble) (v : Byte) (s : State) : (s.writeV x v).stack = s.stack := rfl
@[simp] theorem writeV_SP (x : Nibble) (v : Byte) (s : State) : (s.writeV x v).SP = s.SP := rfl
@[simp] theorem writeV_DT (x : Nibble) (v : Byte) (s : State) : (s.writeV x v).DT = s.DT := rfl
@[simp] theorem writeV_ST (x : Nibble) (v : Byte) (s : State) : (s.writeV x v).ST = s.ST := rfl
@[simp] theorem writeV_disp (x : Nibble) (v : Byte) (s : State) : (s.writeV x v).disp = s.disp := rfl
@[simp] theorem writeV_kwActive (x : Nibble) (v : Byte) (s : State) : (s.writeV x v).kwActive = s.kwActive := rfl
@[simp] theorem writeV_kwKey (x : Nibble) (v : Byte) (s : State) : (s.writeV x v).kwKey = s.kwKey := rfl
@[simp] theorem writeV_drawNeeded (x : Nibble) (v : Byte) (s : State) : (s.writeV x v).drawNeeded = s.drawNeeded := rfl
@[simp] theorem writeV_stepDrew (x : Nibble) (v : Byte) (s : State) : (s.writeV x v).stepDrew = s.stepDrew := rfl
@[simp] theorem writeV_runState (x : Nibble) (v : Byte) (s : State) : (s.writeV x v).runState = s.runState := rfl
@[simp] theorem writeV_faultCause (x : Nibble) (v : Byte) (s : State) : (s.writeV x v).faultCause = s.faultCause := rfl
@[simp] theorem writeV_shouldPlaySound (x : Nibble) (v : Byte) (s : State) : (s.writeV x v).shouldPlaySound = s.shouldPlaySound := rfl
@[simp] theorem writeV_cfg (x : Nibble) (v : Byte) (s : State) : (s.writeV x v).cfg = s.cfg := rfl
@[simp] theorem writeV_key (x : Nibble) (v : Byte) (s : State) : (s.writeV x v).key = s.key := rfl
@[simp] theorem writeV_rnd (x : Nibble) (v : Byte) (s : State) : (s.writeV x v).rnd = s.rnd := rfl
@[simp] theorem writeV_inbox (x : Nibble) (v : Byte) (s : State) : (s.writeV x v).inbox = s.inbox := rfl
@[simp] theorem writeV_draws (x : Nibble) (v : Byte) (s : State) : (s.writeV x v).draws = s.draws := rfl

/-! ### setV -/

@[simp] theorem setV_mem (V : Vector Byte 16) (s : State) : (s.setV V).mem = s.mem := rfl
@[simp] theorem setV_V (V : Vector Byte 16) (s : State) : (s.setV V).V = V := rfl
@[simp] theorem setV_I (V : Vector Byte 16) (s : State) : (s.setV V).I = s.I := rfl
@[simp] theorem setV_pc (V : Vector Byte 16) (s : State) : (s.setV V).pc = s.pc := rfl
@[simp] theorem setV_stack (V : Vector Byte 16) (s : State) : (s.setV V).stack = s.stack := rfl
@[simp] theorem setV_SP (V : Vector Byte 16) (s : State) : (s.setV V).SP = s.SP := rfl
@[simp] theorem setV_DT (V : Vector Byte 16) (s : State) : (s.setV V).DT = s.DT := rfl
@[simp] theorem setV_ST (V : Vector Byte 16) (s : State) : (s.setV V).ST = s.ST := rfl
@[simp] theorem setV_disp (V : Vector Byte 16) (s : State) : (s.setV V).disp = s.disp := rfl
@[simp] theorem setV_kwActive (V : Vector Byte 16) (s : State) : (s.setV V).kwActive = s.kwActive := rfl
@[simp] theorem setV_kwKey (V : Vector Byte 16) (s : State) : (s.setV V).kwKey = s.kwKey := rfl
@[simp] theorem setV_drawNeeded (V : Vector Byte 16) (s : State) : (s.setV V).drawNeeded = s.drawNeeded := rfl
@[simp] theorem setV_stepDrew (V : Vector Byte 16) (s : State) : (s.setV V).stepDrew = s.stepDrew := rfl
@[simp] theorem setV_runState (V : Vector Byte 16) (s : State) : (s.setV V).runState = s.runState := rfl
@[simp] theorem setV_faultCause (V : Vector Byte 16) (s : State) : (s.setV V).faultCause = s.faultCause := rfl
@[simp] theorem setV_shouldPlaySound (V : Vector Byte 16) (s : State) : (s.setV V).shouldPlaySound = s.shouldPlaySound := rfl
@[simp] theorem setV_cfg (V : Vector Byte 16) (s : State) : (s.setV V).cfg = s.cfg := rfl
@[simp] theorem setV_key (V : Vector Byte 16) (s : State) : (s.setV V).key = s.key := rfl
@[simp] theorem setV_rnd (V : Vector Byte 16) (s : State) : (s.setV V).rnd = s.rnd := rfl
@[simp] theorem setV_inbox (V : Vector Byte 16) (s : State) : (s.setV V).inbox = s.inbox := rfl
@[simp] theorem setV_draws (V : Vector Byte 16) (s : State) : (s.setV V).draws = s.draws := rfl

/-! ### setI -/

@[simp] theorem setI_mem (v : Word) (s : State) : (s.setI v).mem = s.mem := rfl
@[simp] theorem setI_V (v : Word) (s : State) : (s.setI v).V = s.V := rfl
@[simp] theorem setI_I (v : Word) (s : State) : (s.setI v).I = v := rfl
@[simp] theorem setI_pc (v : Word) (s : State) : (s.setI v).pc = s.pc := rfl
@[simp] theorem setI_stack (v : Word) (s : State) : (s.setI v).stack = s.stack := rfl
@[simp] theorem setI_SP (v : Word) (s : State) : (s.setI v).SP = s.SP := rfl
@[simp] theorem setI_DT (v : Word) (s : State) : (s.setI v).DT = s.DT := rfl
@[simp] theorem setI_ST (v : Word) (s : State) : (s.setI v).ST = s.ST := rfl
@[simp] theorem setI_disp (v : Word) (s : State) : (s.setI v).disp = s.disp := rfl
@[simp] theorem setI_kwActive (v : Word) (s : State) : (s.setI v).kwActive = s.kwActive := rfl
@[simp] theorem setI_kwKey (v : Word) (s : State) : (s.setI v).kwKey = s.kwKey := rfl
@[simp] theorem setI_drawNeeded (v : Word) (s : State) : (s.setI v).drawNeeded = s.drawNeeded := rfl
@[simp] theorem setI_stepDrew (v : Word) (s : State) : (s.setI v).stepDrew = s.stepDrew := rfl
@[simp] theorem setI_runState (v : Word) (s : State) : (s.setI v).runState = s.runState := rfl
@[simp] theorem setI_faultCause (v : Word) (s : State) : (s.setI v).faultCause = s.faultCause := rfl
@[simp] theorem setI_shouldPlaySound (v : Word) (s : State) : (s.setI v).shouldPlaySound = s.shouldPlaySound := rfl
@[simp] theorem setI_cfg (v : Word) (s : State) : (s.setI v).cfg = s.cfg := rfl
@[simp] theorem setI_key (v : Word) (s : State) : (s.setI v).key = s.key := rfl
@[simp] theorem setI_rnd (v : Word) (s : State) : (s.setI v).rnd = s.rnd := rfl
@[simp] theorem setI_inbox (v : Word) (s : State) : (s.setI v).inbox = s.inbox := rfl
@[simp] theorem setI_draws (v : Word) (s : State) : (s.setI v).draws = s.draws := rfl
@[simp] theorem setI_readV (v : Word) (s : State) (i : Nibble) : (s.setI v).readV i = s.readV i := rfl

/-! ### setPc -/

@[simp] theorem setPc_mem (v : Word) (s : State) : (s.setPc v).mem = s.mem := rfl
@[simp] theorem setPc_V (v : Word) (s : State) : (s.setPc v).V = s.V := rfl
@[simp] theorem setPc_I (v : Word) (s : State) : (s.setPc v).I = s.I := rfl
@[simp] theorem setPc_pc (v : Word) (s : State) : (s.setPc v).pc = v := rfl
@[simp] theorem setPc_stack (v : Word) (s : State) : (s.setPc v).stack = s.stack := rfl
@[simp] theorem setPc_SP (v : Word) (s : State) : (s.setPc v).SP = s.SP := rfl
@[simp] theorem setPc_DT (v : Word) (s : State) : (s.setPc v).DT = s.DT := rfl
@[simp] theorem setPc_ST (v : Word) (s : State) : (s.setPc v).ST = s.ST := rfl
@[simp] theorem setPc_disp (v : Word) (s : State) : (s.setPc v).disp = s.disp := rfl
@[simp] theorem setPc_kwActive (v : Word) (s : State) : (s.setPc v).kwActive = s.kwActive := rfl
@[simp] theorem setPc_kwKey (v : Word) (s : State) : (s.setPc v).kwKey = s.kwKey := rfl
@[simp] theorem setPc_drawNeeded (v : Word) (s : State) : (s.setPc v).drawNeeded = s.drawNeeded := rfl
@[simp] theorem setPc_stepDrew (v : Word) (s : State) : (s.setPc v).stepDrew = s.stepDrew := rfl
@[simp] theorem setPc_runState (v : Word) (s : State) : (s.setPc v).runState = s.runState := rfl
@[simp] theorem setPc_faultCause (v : Word) (s : State) : (s.setPc v).faultCause = s.faultCause := rfl
@[simp] theorem setPc_shouldPlaySound (v : Word) (s : State) : (s.setPc v).shouldPlaySound = s.shouldPlaySound := rfl
@[simp] theorem setPc_cfg (v : Word) (s : State) : (s.setPc v).cfg = s.cfg := rfl
@[simp] theorem setPc_key (v : Word) (s : State) : (s.setPc v).key = s.key := rfl
@[simp] theorem setPc_rnd (v : Word) (s : State) : (s.setPc v).rnd = s.rnd := rfl
@[simp] theorem setPc_inbox (v : Word) (s : State) : (s.setPc v).inbox = s.inbox := rfl
@[simp] theorem setPc_draws (v : Word) (s : State) : (s.setPc v).draws = s.draws := rfl
@[simp] theorem setPc_readV (v : Word) (s : State) (i : Nibble) : (s.setPc v).readV i = s.readV i := rfl

/-! ### setDT -/

@[simp] theorem setDT_mem (v : Byte) (s : State) : (s.setDT v).mem = s.mem := rfl
@[simp] theorem setDT_V (v : Byte) (s : State) : (s.setDT v).V = s.V := rfl
@[simp] theorem setDT_I (v : Byte) (s : State) : (s.setDT v).I = s.I := rfl
@[simp] theorem setDT_pc (v : Byte) (s : State) : (s.setDT v).pc = s.pc := rfl
@[simp] theorem setDT_stack (v : Byte) (s : State) : (s.setDT v).stack = s.stack := rfl
@[simp] theorem setDT_SP (v : Byte) (s : State) : (s.setDT v).SP = s.SP := rfl
@[simp] theorem setDT_DT (v : Byte) (s : State) : (s.setDT v).DT = v := rfl
@[simp] theorem setDT_ST (v : Byte) (s : State) : (s.setDT v).ST = s.ST := rfl
@[simp] theorem setDT_disp (v : Byte) (s : State) : (s.setDT v).disp = s.disp := rfl
@[simp] theorem setDT_kwActive (v : Byte) (s : State) : (s.setDT v).kwActive = s.kwActive := rfl
@[simp] theorem setDT_kwKey (v : Byte) (s : State) : (s.setDT v).kwKey = s.kwKey := rfl
@[simp] theorem setDT_drawNeeded (v : Byte) (s : State) : (s.setDT v).drawNeeded = s.drawNeeded := rfl
@[simp] theorem setDT_stepDrew (v : Byte) (s : State) : (s.setDT v).stepDrew = s.stepDrew := rfl
@[simp] theorem setDT_runState (v : Byte) (s : State) : (s.setDT v).runState = s.runState := rfl
@[simp] theorem setDT_faultCause (v : Byte) (s : State) : (s.setDT v).faultCause = s.faultCause := rfl
@[simp] theorem setDT_shouldPlaySound (v : Byte) (s : State) : (s.setDT v).shouldPlaySound = s.shouldPlaySound := rfl
@[simp] theorem setDT_cfg (v : Byte) (s : State) : (s.setDT v).cfg = s.cfg := rfl
@[simp] theorem setDT_key (v : Byte) (s : State) : (s.setDT v).key = s.key := rfl
@[simp] theorem setDT_rnd (v : Byte) (s : State) : (s.setDT v).rnd = s.rnd := rfl
@[simp] theorem setDT_inbox (v : Byte) (s : State) : (s.setDT v).inbox = s.inbox := rfl
@[simp] theorem setDT_draws (v : Byte) (s : State) : (s.setDT v).draws = s.draws := rfl
@[simp] theorem setDT_readV (v : Byte) (s : State) (i : Nibble) : (s.setDT v).readV i = s.readV i := rfl

/-! ### setST -/

@[simp] theorem setST_mem (v : Byte) (s : State) : (s.setST v).mem = s.mem := rfl
@[simp] theorem setST_V (v : Byte) (s : State) : (s.setST v).V = s.V := rfl
@[simp] theorem setST_I (v : Byte) (s : State) : (s.setST v).I = s.I := rfl
@[simp] theorem setST_pc (v : Byte) (s : State) : (s.setST v).pc = s.pc := rfl
@[simp] theorem setST_stack (v : Byte) (s : State) : (s.setST v).stack = s.stack := rfl
@[simp] theorem setST_SP (v : Byte) (s : State) : (s.setST v).SP = s.SP := rfl
@[simp] theorem setST_DT (v : Byte) (s : State) : (s.setST v).DT = s.DT := rfl
@[simp] theorem setST_ST (v : Byte) (s : State) : (s.setST v).ST = v := rfl
@[simp] theorem setST_disp (v : Byte) (s : State) : (s.setST v).disp = s.disp := rfl
@[simp] theorem setST_kwActive (v : Byte) (s : State) : (s.setST v).kwActive = s.kwActive := rfl
@[simp] theorem setST_kwKey (v : Byte) (s : State) : (s.setST v).kwKey = s.kwKey := rfl
@[simp] theorem setST_drawNeeded (v : Byte) (s : State) : (s.setST v).drawNeeded = s.drawNeeded := rfl
@[simp] theorem setST_stepDrew (v : Byte) (s : State) : (s.setST v).stepDrew = s.stepDrew := rfl
@[simp] theorem setST_runState (v : Byte) (s : State) : (s.setST v).runState = s.runState := rfl
@[simp] theorem setST_faultCause (v : Byte) (s : State) : (s.setST v).faultCause = s.faultCause := rfl
@[simp] theorem setST_shouldPlaySound (v : Byte) (s : State) : (s.setST v).shouldPlaySound = s.shouldPlaySound := rfl
@[simp] theorem setST_cfg (v : Byte) (s : State) : (s.setST v).cfg = s.cfg := rfl
@[simp] theorem setST_key (v : Byte) (s : State) : (s.setST v).key = s.key := rfl
@[simp] theorem setST_rnd (v : Byte) (s : State) : (s.setST v).rnd = s.rnd := rfl
@[simp] theorem setST_inbox (v : Byte) (s : State) : (s.setST v).inbox = s.inbox := rfl
@[simp] theorem setST_draws (v : Byte) (s : State) : (s.setST v).draws = s.draws := rfl
@[simp] theorem setST_readV (v : Byte) (s : State) (i : Nibble) : (s.setST v).readV i = s.readV i := rfl

/-! ### setMem -/

@[simp] theorem setMem_mem (m : Memory) (s : State) : (s.setMem m).mem = m := rfl
@[simp] theorem setMem_V (m : Memory) (s : State) : (s.setMem m).V = s.V := rfl
@[simp] theorem setMem_I (m : Memory) (s : State) : (s.setMem m).I = s.I := rfl
@[simp] theorem setMem_pc (m : Memory) (s : State) : (s.setMem m).pc = s.pc := rfl
@[simp] theorem setMem_stack (m : Memory) (s : State) : (s.setMem m).stack = s.stack := rfl
@[simp] theorem setMem_SP (m : Memory) (s : State) : (s.setMem m).SP = s.SP := rfl
@[simp] theorem setMem_DT (m : Memory) (s : State) : (s.setMem m).DT = s.DT := rfl
@[simp] theorem setMem_ST (m : Memory) (s : State) : (s.setMem m).ST = s.ST := rfl
@[simp] theorem setMem_disp (m : Memory) (s : State) : (s.setMem m).disp = s.disp := rfl
@[simp] theorem setMem_kwActive (m : Memory) (s : State) : (s.setMem m).kwActive = s.kwActive := rfl
@[simp] theorem setMem_kwKey (m : Memory) (s : State) : (s.setMem m).kwKey = s.kwKey := rfl
@[simp] theorem setMem_drawNeeded (m : Memory) (s : State) : (s.setMem m).drawNeeded = s.drawNeeded := rfl
@[simp] theorem setMem_stepDrew (m : Memory) (s : State) : (s.setMem m).stepDrew = s.stepDrew := rfl
@[simp] theorem setMem_runState (m : Memory) (s : State) : (s.setMem m).runState = s.runState := rfl
@[simp] theorem setMem_faultCause (m : Memory) (s : State) : (s.setMem m).faultCause = s.faultCause := rfl
@[simp] theorem setMem_shouldPlaySound (m : Memory) (s : State) : (s.setMem m).shouldPlaySound = s.shouldPlaySound := rfl
@[simp] theorem setMem_cfg (m : Memory) (s : State) : (s.setMem m).cfg = s.cfg := rfl
@[simp] theorem setMem_key (m : Memory) (s : State) : (s.setMem m).key = s.key := rfl
@[simp] theorem setMem_rnd (m : Memory) (s : State) : (s.setMem m).rnd = s.rnd := rfl
@[simp] theorem setMem_inbox (m : Memory) (s : State) : (s.setMem m).inbox = s.inbox := rfl
@[simp] theorem setMem_draws (m : Memory) (s : State) : (s.setMem m).draws = s.draws := rfl
@[simp] theorem setMem_readV (m : Memory) (s : State) (i : Nibble) : (s.setMem m).readV i = s.readV i := rfl

/-! ### latchKey -/

@[simp] theorem latchKey_mem (k : Nibble) (s : State) : (s.latchKey k).mem = s.mem := rfl
@[simp] theorem latchKey_V (k : Nibble) (s : State) : (s.latchKey k).V = s.V := rfl
@[simp] theorem latchKey_I (k : Nibble) (s : State) : (s.latchKey k).I = s.I := rfl
@[simp] theorem latchKey_pc (k : Nibble) (s : State) : (s.latchKey k).pc = s.pc := rfl
@[simp] theorem latchKey_stack (k : Nibble) (s : State) : (s.latchKey k).stack = s.stack := rfl
@[simp] theorem latchKey_SP (k : Nibble) (s : State) : (s.latchKey k).SP = s.SP := rfl
@[simp] theorem latchKey_DT (k : Nibble) (s : State) : (s.latchKey k).DT = s.DT := rfl
@[simp] theorem latchKey_ST (k : Nibble) (s : State) : (s.latchKey k).ST = s.ST := rfl
@[simp] theorem latchKey_disp (k : Nibble) (s : State) : (s.latchKey k).disp = s.disp := rfl
@[simp] theorem latchKey_kwActive (k : Nibble) (s : State) : (s.latchKey k).kwActive = true := rfl
@[simp] theorem latchKey_kwKey (k : Nibble) (s : State) : (s.latchKey k).kwKey = k := rfl
@[simp] theorem latchKey_drawNeeded (k : Nibble) (s : State) : (s.latchKey k).drawNeeded = s.drawNeeded := rfl
@[simp] theorem latchKey_stepDrew (k : Nibble) (s : State) : (s.latchKey k).stepDrew = s.stepDrew := rfl
@[simp] theorem latchKey_runState (k : Nibble) (s : State) : (s.latchKey k).runState = s.runState := rfl
@[simp] theorem latchKey_faultCause (k : Nibble) (s : State) : (s.latchKey k).faultCause = s.faultCause := rfl
@[simp] theorem latchKey_shouldPlaySound (k : Nibble) (s : State) : (s.latchKey k).shouldPlaySound = s.shouldPlaySound := rfl
@[simp] theorem latchKey_cfg (k : Nibble) (s : State) : (s.latchKey k).cfg = s.cfg := rfl
@[simp] theorem latchKey_key (k : Nibble) (s : State) : (s.latchKey k).key = s.key := rfl
@[simp] theorem latchKey_rnd (k : Nibble) (s : State) : (s.latchKey k).rnd = s.rnd := rfl
@[simp] theorem latchKey_inbox (k : Nibble) (s : State) : (s.latchKey k).inbox = s.inbox := rfl
@[simp] theorem latchKey_draws (k : Nibble) (s : State) : (s.latchKey k).draws = s.draws := rfl
@[simp] theorem latchKey_readV (k : Nibble) (s : State) (i : Nibble) : (s.latchKey k).readV i = s.readV i := rfl

/-! ### releaseLatch -/

@[simp] theorem releaseLatch_mem (s : State) : (s.releaseLatch).mem = s.mem := rfl
@[simp] theorem releaseLatch_V (s : State) : (s.releaseLatch).V = s.V := rfl
@[simp] theorem releaseLatch_I (s : State) : (s.releaseLatch).I = s.I := rfl
@[simp] theorem releaseLatch_pc (s : State) : (s.releaseLatch).pc = s.pc := rfl
@[simp] theorem releaseLatch_stack (s : State) : (s.releaseLatch).stack = s.stack := rfl
@[simp] theorem releaseLatch_SP (s : State) : (s.releaseLatch).SP = s.SP := rfl
@[simp] theorem releaseLatch_DT (s : State) : (s.releaseLatch).DT = s.DT := rfl
@[simp] theorem releaseLatch_ST (s : State) : (s.releaseLatch).ST = s.ST := rfl
@[simp] theorem releaseLatch_disp (s : State) : (s.releaseLatch).disp = s.disp := rfl
@[simp] theorem releaseLatch_kwActive (s : State) : (s.releaseLatch).kwActive = false := rfl
@[simp] theorem releaseLatch_kwKey (s : State) : (s.releaseLatch).kwKey = s.kwKey := rfl
@[simp] theorem releaseLatch_drawNeeded (s : State) : (s.releaseLatch).drawNeeded = s.drawNeeded := rfl
@[simp] theorem releaseLatch_stepDrew (s : State) : (s.releaseLatch).stepDrew = s.stepDrew := rfl
@[simp] theorem releaseLatch_runState (s : State) : (s.releaseLatch).runState = s.runState := rfl
@[simp] theorem releaseLatch_faultCause (s : State) : (s.releaseLatch).faultCause = s.faultCause := rfl
@[simp] theorem releaseLatch_shouldPlaySound (s : State) : (s.releaseLatch).shouldPlaySound = s.shouldPlaySound := rfl
@[simp] theorem releaseLatch_cfg (s : State) : (s.releaseLatch).cfg = s.cfg := rfl
@[simp] theorem releaseLatch_key (s : State) : (s.releaseLatch).key = s.key := rfl
@[simp] theorem releaseLatch_rnd (s : State) : (s.releaseLatch).rnd = s.rnd := rfl
@[simp] theorem releaseLatch_inbox (s : State) : (s.releaseLatch).inbox = s.inbox := rfl
@[simp] theorem releaseLatch_draws (s : State) : (s.releaseLatch).draws = s.draws := rfl
@[simp] theorem releaseLatch_readV (s : State) (i : Nibble) : (s.releaseLatch).readV i = s.readV i := rfl

/-! ### present -/

@[simp] theorem present_mem (d : Display) (s : State) : (s.present d).mem = s.mem := rfl
@[simp] theorem present_V (d : Display) (s : State) : (s.present d).V = s.V := rfl
@[simp] theorem present_I (d : Display) (s : State) : (s.present d).I = s.I := rfl
@[simp] theorem present_pc (d : Display) (s : State) : (s.present d).pc = s.pc := rfl
@[simp] theorem present_stack (d : Display) (s : State) : (s.present d).stack = s.stack := rfl
@[simp] theorem present_SP (d : Display) (s : State) : (s.present d).SP = s.SP := rfl
@[simp] theorem present_DT (d : Display) (s : State) : (s.present d).DT = s.DT := rfl
@[simp] theorem present_ST (d : Display) (s : State) : (s.present d).ST = s.ST := rfl
@[simp] theorem present_disp (d : Display) (s : State) : (s.present d).disp = d := rfl
@[simp] theorem present_kwActive (d : Display) (s : State) : (s.present d).kwActive = s.kwActive := rfl
@[simp] theorem present_kwKey (d : Display) (s : State) : (s.present d).kwKey = s.kwKey := rfl
@[simp] theorem present_drawNeeded (d : Display) (s : State) : (s.present d).drawNeeded = true := rfl
@[simp] theorem present_stepDrew (d : Display) (s : State) : (s.present d).stepDrew = true := rfl
@[simp] theorem present_runState (d : Display) (s : State) : (s.present d).runState = s.runState := rfl
@[simp] theorem present_faultCause (d : Display) (s : State) : (s.present d).faultCause = s.faultCause := rfl
@[simp] theorem present_shouldPlaySound (d : Display) (s : State) : (s.present d).shouldPlaySound = s.shouldPlaySound := rfl
@[simp] theorem present_cfg (d : Display) (s : State) : (s.present d).cfg = s.cfg := rfl
@[simp] theorem present_key (d : Display) (s : State) : (s.present d).key = s.key := rfl
@[simp] theorem present_rnd (d : Display) (s : State) : (s.present d).rnd = s.rnd := rfl
@[simp] theorem present_inbox (d : Display) (s : State) : (s.present d).inbox = s.inbox := rfl
@[simp] theorem present_draws (d : Display) (s : State) : (s.present d).draws = s.draws := rfl
@[simp] theorem present_readV (d : Display) (s : State) (i : Nibble) : (s.present d).readV i = s.readV i := rfl

/-! ### clearStepDrew -/

@[simp] theorem clearStepDrew_mem (s : State) : (s.clearStepDrew).mem = s.mem := rfl
@[simp] theorem clearStepDrew_V (s : State) : (s.clearStepDrew).V = s.V := rfl
@[simp] theorem clearStepDrew_I (s : State) : (s.clearStepDrew).I = s.I := rfl
@[simp] theorem clearStepDrew_pc (s : State) : (s.clearStepDrew).pc = s.pc := rfl
@[simp] theorem clearStepDrew_stack (s : State) : (s.clearStepDrew).stack = s.stack := rfl
@[simp] theorem clearStepDrew_SP (s : State) : (s.clearStepDrew).SP = s.SP := rfl
@[simp] theorem clearStepDrew_DT (s : State) : (s.clearStepDrew).DT = s.DT := rfl
@[simp] theorem clearStepDrew_ST (s : State) : (s.clearStepDrew).ST = s.ST := rfl
@[simp] theorem clearStepDrew_disp (s : State) : (s.clearStepDrew).disp = s.disp := rfl
@[simp] theorem clearStepDrew_kwActive (s : State) : (s.clearStepDrew).kwActive = s.kwActive := rfl
@[simp] theorem clearStepDrew_kwKey (s : State) : (s.clearStepDrew).kwKey = s.kwKey := rfl
@[simp] theorem clearStepDrew_drawNeeded (s : State) : (s.clearStepDrew).drawNeeded = s.drawNeeded := rfl
@[simp] theorem clearStepDrew_stepDrew (s : State) : (s.clearStepDrew).stepDrew = false := rfl
@[simp] theorem clearStepDrew_runState (s : State) : (s.clearStepDrew).runState = s.runState := rfl
@[simp] theorem clearStepDrew_faultCause (s : State) : (s.clearStepDrew).faultCause = s.faultCause := rfl
@[simp] theorem clearStepDrew_shouldPlaySound (s : State) : (s.clearStepDrew).shouldPlaySound = s.shouldPlaySound := rfl
@[simp] theorem clearStepDrew_cfg (s : State) : (s.clearStepDrew).cfg = s.cfg := rfl
@[simp] theorem clearStepDrew_key (s : State) : (s.clearStepDrew).key = s.key := rfl
@[simp] theorem clearStepDrew_rnd (s : State) : (s.clearStepDrew).rnd = s.rnd := rfl
@[simp] theorem clearStepDrew_inbox (s : State) : (s.clearStepDrew).inbox = s.inbox := rfl
@[simp] theorem clearStepDrew_draws (s : State) : (s.clearStepDrew).draws = s.draws := rfl
@[simp] theorem clearStepDrew_readV (s : State) (i : Nibble) : (s.clearStepDrew).readV i = s.readV i := rfl

/-! ### sample -/

@[simp] theorem sample_mem (k : Word) (r : Byte) (s : State) : (s.sample k r).mem = s.mem := rfl
@[simp] theorem sample_V (k : Word) (r : Byte) (s : State) : (s.sample k r).V = s.V := rfl
@[simp] theorem sample_I (k : Word) (r : Byte) (s : State) : (s.sample k r).I = s.I := rfl
@[simp] theorem sample_pc (k : Word) (r : Byte) (s : State) : (s.sample k r).pc = s.pc := rfl
@[simp] theorem sample_stack (k : Word) (r : Byte) (s : State) : (s.sample k r).stack = s.stack := rfl
@[simp] theorem sample_SP (k : Word) (r : Byte) (s : State) : (s.sample k r).SP = s.SP := rfl
@[simp] theorem sample_DT (k : Word) (r : Byte) (s : State) : (s.sample k r).DT = s.DT := rfl
@[simp] theorem sample_ST (k : Word) (r : Byte) (s : State) : (s.sample k r).ST = s.ST := rfl
@[simp] theorem sample_disp (k : Word) (r : Byte) (s : State) : (s.sample k r).disp = s.disp := rfl
@[simp] theorem sample_kwActive (k : Word) (r : Byte) (s : State) : (s.sample k r).kwActive = s.kwActive := rfl
@[simp] theorem sample_kwKey (k : Word) (r : Byte) (s : State) : (s.sample k r).kwKey = s.kwKey := rfl
@[simp] theorem sample_drawNeeded (k : Word) (r : Byte) (s : State) : (s.sample k r).drawNeeded = s.drawNeeded := rfl
@[simp] theorem sample_stepDrew (k : Word) (r : Byte) (s : State) : (s.sample k r).stepDrew = s.stepDrew := rfl
@[simp] theorem sample_runState (k : Word) (r : Byte) (s : State) : (s.sample k r).runState = s.runState := rfl
@[simp] theorem sample_faultCause (k : Word) (r : Byte) (s : State) : (s.sample k r).faultCause = s.faultCause := rfl
@[simp] theorem sample_shouldPlaySound (k : Word) (r : Byte) (s : State) : (s.sample k r).shouldPlaySound = s.shouldPlaySound := rfl
@[simp] theorem sample_cfg (k : Word) (r : Byte) (s : State) : (s.sample k r).cfg = s.cfg := rfl
@[simp] theorem sample_key (k : Word) (r : Byte) (s : State) : (s.sample k r).key = k := rfl
@[simp] theorem sample_rnd (k : Word) (r : Byte) (s : State) : (s.sample k r).rnd = r := rfl
@[simp] theorem sample_inbox (k : Word) (r : Byte) (s : State) : (s.sample k r).inbox = s.inbox := rfl
@[simp] theorem sample_draws (k : Word) (r : Byte) (s : State) : (s.sample k r).draws = s.draws := rfl
@[simp] theorem sample_readV (k : Word) (r : Byte) (s : State) (i : Nibble) : (s.sample k r).readV i = s.readV i := rfl

/-! ### drawFree -/

@[simp] theorem drawFree_mem (s : State) : (s.drawFree).mem = s.mem := rfl
@[simp] theorem drawFree_V (s : State) : (s.drawFree).V = s.V := rfl
@[simp] theorem drawFree_I (s : State) : (s.drawFree).I = s.I := rfl
@[simp] theorem drawFree_pc (s : State) : (s.drawFree).pc = s.pc := rfl
@[simp] theorem drawFree_stack (s : State) : (s.drawFree).stack = s.stack := rfl
@[simp] theorem drawFree_SP (s : State) : (s.drawFree).SP = s.SP := rfl
@[simp] theorem drawFree_DT (s : State) : (s.drawFree).DT = s.DT := rfl
@[simp] theorem drawFree_ST (s : State) : (s.drawFree).ST = s.ST := rfl
@[simp] theorem drawFree_disp (s : State) : (s.drawFree).disp = s.disp := rfl
@[simp] theorem drawFree_kwActive (s : State) : (s.drawFree).kwActive = s.kwActive := rfl
@[simp] theorem drawFree_kwKey (s : State) : (s.drawFree).kwKey = s.kwKey := rfl
@[simp] theorem drawFree_drawNeeded (s : State) : (s.drawFree).drawNeeded = s.drawNeeded := rfl
@[simp] theorem drawFree_stepDrew (s : State) : (s.drawFree).stepDrew = s.stepDrew := rfl
@[simp] theorem drawFree_runState (s : State) : (s.drawFree).runState = s.runState := rfl
@[simp] theorem drawFree_faultCause (s : State) : (s.drawFree).faultCause = s.faultCause := rfl
@[simp] theorem drawFree_shouldPlaySound (s : State) : (s.drawFree).shouldPlaySound = s.shouldPlaySound := rfl
@[simp] theorem drawFree_cfg (s : State) : (s.drawFree).cfg = s.cfg := rfl
@[simp] theorem drawFree_key (s : State) : (s.drawFree).key = Config.freeKeys s.draws := rfl
@[simp] theorem drawFree_rnd (s : State) : (s.drawFree).rnd = Config.freeByte s.draws := rfl
@[simp] theorem drawFree_inbox (s : State) : (s.drawFree).inbox = s.inbox := rfl
@[simp] theorem drawFree_draws (s : State) : (s.drawFree).draws = s.draws + 1 := rfl
@[simp] theorem drawFree_readV (s : State) (i : Nibble) : (s.drawFree).readV i = s.readV i := rfl

/-! ### setInbox -/

@[simp] theorem setInbox_mem (l : List Request) (s : State) : (s.setInbox l).mem = s.mem := rfl
@[simp] theorem setInbox_V (l : List Request) (s : State) : (s.setInbox l).V = s.V := rfl
@[simp] theorem setInbox_I (l : List Request) (s : State) : (s.setInbox l).I = s.I := rfl
@[simp] theorem setInbox_pc (l : List Request) (s : State) : (s.setInbox l).pc = s.pc := rfl
@[simp] theorem setInbox_stack (l : List Request) (s : State) : (s.setInbox l).stack = s.stack := rfl
@[simp] theorem setInbox_SP (l : List Request) (s : State) : (s.setInbox l).SP = s.SP := rfl
@[simp] theorem setInbox_DT (l : List Request) (s : State) : (s.setInbox l).DT = s.DT := rfl
@[simp] theorem setInbox_ST (l : List Request) (s : State) : (s.setInbox l).ST = s.ST := rfl
@[simp] theorem setInbox_disp (l : List Request) (s : State) : (s.setInbox l).disp = s.disp := rfl
@[simp] theorem setInbox_kwActive (l : List Request) (s : State) : (s.setInbox l).kwActive = s.kwActive := rfl
@[simp] theorem setInbox_kwKey (l : List Request) (s : State) : (s.setInbox l).kwKey = s.kwKey := rfl
@[simp] theorem setInbox_drawNeeded (l : List Request) (s : State) : (s.setInbox l).drawNeeded = s.drawNeeded := rfl
@[simp] theorem setInbox_stepDrew (l : List Request) (s : State) : (s.setInbox l).stepDrew = s.stepDrew := rfl
@[simp] theorem setInbox_runState (l : List Request) (s : State) : (s.setInbox l).runState = s.runState := rfl
@[simp] theorem setInbox_faultCause (l : List Request) (s : State) : (s.setInbox l).faultCause = s.faultCause := rfl
@[simp] theorem setInbox_shouldPlaySound (l : List Request) (s : State) : (s.setInbox l).shouldPlaySound = s.shouldPlaySound := rfl
@[simp] theorem setInbox_cfg (l : List Request) (s : State) : (s.setInbox l).cfg = s.cfg := rfl
@[simp] theorem setInbox_key (l : List Request) (s : State) : (s.setInbox l).key = s.key := rfl
@[simp] theorem setInbox_rnd (l : List Request) (s : State) : (s.setInbox l).rnd = s.rnd := rfl
@[simp] theorem setInbox_inbox (l : List Request) (s : State) : (s.setInbox l).inbox = l := rfl
@[simp] theorem setInbox_draws (l : List Request) (s : State) : (s.setInbox l).draws = s.draws := rfl
@[simp] theorem setInbox_readV (l : List Request) (s : State) (i : Nibble) : (s.setInbox l).readV i = s.readV i := rfl

/-! ### raise -/

@[simp] theorem raise_mem (c : FaultCause) (s : State) : (s.raise c).mem = s.mem := rfl
@[simp] theorem raise_V (c : FaultCause) (s : State) : (s.raise c).V = s.V := rfl
@[simp] theorem raise_I (c : FaultCause) (s : State) : (s.raise c).I = s.I := rfl
@[simp] theorem raise_pc (c : FaultCause) (s : State) : (s.raise c).pc = s.pc := rfl
@[simp] theorem raise_stack (c : FaultCause) (s : State) : (s.raise c).stack = s.stack := rfl
@[simp] theorem raise_SP (c : FaultCause) (s : State) : (s.raise c).SP = s.SP := rfl
@[simp] theorem raise_DT (c : FaultCause) (s : State) : (s.raise c).DT = s.DT := rfl
@[simp] theorem raise_ST (c : FaultCause) (s : State) : (s.raise c).ST = s.ST := rfl
@[simp] theorem raise_disp (c : FaultCause) (s : State) : (s.raise c).disp = s.disp := rfl
@[simp] theorem raise_kwActive (c : FaultCause) (s : State) : (s.raise c).kwActive = s.kwActive := rfl
@[simp] theorem raise_kwKey (c : FaultCause) (s : State) : (s.raise c).kwKey = s.kwKey := rfl
@[simp] theorem raise_drawNeeded (c : FaultCause) (s : State) : (s.raise c).drawNeeded = s.drawNeeded := rfl
@[simp] theorem raise_stepDrew (c : FaultCause) (s : State) : (s.raise c).stepDrew = false := rfl
@[simp] theorem raise_runState (c : FaultCause) (s : State) : (s.raise c).runState = RunState.quit := rfl
@[simp] theorem raise_faultCause (c : FaultCause) (s : State) : (s.raise c).faultCause = c := rfl
@[simp] theorem raise_shouldPlaySound (c : FaultCause) (s : State) : (s.raise c).shouldPlaySound = s.shouldPlaySound := rfl
@[simp] theorem raise_cfg (c : FaultCause) (s : State) : (s.raise c).cfg = s.cfg := rfl
@[simp] theorem raise_key (c : FaultCause) (s : State) : (s.raise c).key = s.key := rfl
@[simp] theorem raise_rnd (c : FaultCause) (s : State) : (s.raise c).rnd = s.rnd := rfl
@[simp] theorem raise_inbox (c : FaultCause) (s : State) : (s.raise c).inbox = s.inbox := rfl
@[simp] theorem raise_draws (c : FaultCause) (s : State) : (s.raise c).draws = s.draws := rfl
@[simp] theorem raise_readV (c : FaultCause) (s : State) (i : Nibble) : (s.raise c).readV i = s.readV i := rfl

/-! ### clearDraw -/

@[simp] theorem clearDraw_mem (s : State) : (s.clearDraw).mem = s.mem := rfl
@[simp] theorem clearDraw_V (s : State) : (s.clearDraw).V = s.V := rfl
@[simp] theorem clearDraw_I (s : State) : (s.clearDraw).I = s.I := rfl
@[simp] theorem clearDraw_pc (s : State) : (s.clearDraw).pc = s.pc := rfl
@[simp] theorem clearDraw_stack (s : State) : (s.clearDraw).stack = s.stack := rfl
@[simp] theorem clearDraw_SP (s : State) : (s.clearDraw).SP = s.SP := rfl
@[simp] theorem clearDraw_DT (s : State) : (s.clearDraw).DT = s.DT := rfl
@[simp] theorem clearDraw_ST (s : State) : (s.clearDraw).ST = s.ST := rfl
@[simp] theorem clearDraw_disp (s : State) : (s.clearDraw).disp = s.disp := rfl
@[simp] theorem clearDraw_kwActive (s : State) : (s.clearDraw).kwActive = s.kwActive := rfl
@[simp] theorem clearDraw_kwKey (s : State) : (s.clearDraw).kwKey = s.kwKey := rfl
@[simp] theorem clearDraw_drawNeeded (s : State) : (s.clearDraw).drawNeeded = false := rfl
@[simp] theorem clearDraw_stepDrew (s : State) : (s.clearDraw).stepDrew = s.stepDrew := rfl
@[simp] theorem clearDraw_runState (s : State) : (s.clearDraw).runState = s.runState := rfl
@[simp] theorem clearDraw_faultCause (s : State) : (s.clearDraw).faultCause = s.faultCause := rfl
@[simp] theorem clearDraw_shouldPlaySound (s : State) : (s.clearDraw).shouldPlaySound = s.shouldPlaySound := rfl
@[simp] theorem clearDraw_cfg (s : State) : (s.clearDraw).cfg = s.cfg := rfl
@[simp] theorem clearDraw_key (s : State) : (s.clearDraw).key = s.key := rfl
@[simp] theorem clearDraw_rnd (s : State) : (s.clearDraw).rnd = s.rnd := rfl
@[simp] theorem clearDraw_inbox (s : State) : (s.clearDraw).inbox = s.inbox := rfl
@[simp] theorem clearDraw_draws (s : State) : (s.clearDraw).draws = s.draws := rfl
@[simp] theorem clearDraw_readV (s : State) (i : Nibble) : (s.clearDraw).readV i = s.readV i := rfl

/-! ### skipIf -/

@[simp] theorem skipIf_mem (c : Bool) (s : State) : (s.skipIf c).mem = s.mem := by cases c <;> rfl
@[simp] theorem skipIf_V (c : Bool) (s : State) : (s.skipIf c).V = s.V := by cases c <;> rfl
@[simp] theorem skipIf_I (c : Bool) (s : State) : (s.skipIf c).I = s.I := by cases c <;> rfl
@[simp] theorem skipIf_pc (c : Bool) (s : State) : (s.skipIf c).pc = if c then s.pc + 2 else s.pc := by cases c <;> rfl
@[simp] theorem skipIf_stack (c : Bool) (s : State) : (s.skipIf c).stack = s.stack := by cases c <;> rfl
@[simp] theorem skipIf_SP (c : Bool) (s : State) : (s.skipIf c).SP = s.SP := by cases c <;> rfl
@[simp] theorem skipIf_DT (c : Bool) (s : State) : (s.skipIf c).DT = s.DT := by cases c <;> rfl
@[simp] theorem skipIf_ST (c : Bool) (s : State) : (s.skipIf c).ST = s.ST := by cases c <;> rfl
@[simp] theorem skipIf_disp (c : Bool) (s : State) : (s.skipIf c).disp = s.disp := by cases c <;> rfl
@[simp] theorem skipIf_kwActive (c : Bool) (s : State) : (s.skipIf c).kwActive = s.kwActive := by cases c <;> rfl
@[simp] theorem skipIf_kwKey (c : Bool) (s : State) : (s.skipIf c).kwKey = s.kwKey := by cases c <;> rfl
@[simp] theorem skipIf_drawNeeded (c : Bool) (s : State) : (s.skipIf c).drawNeeded = s.drawNeeded := by cases c <;> rfl
@[simp] theorem skipIf_stepDrew (c : Bool) (s : State) : (s.skipIf c).stepDrew = s.stepDrew := by cases c <;> rfl
@[simp] theorem skipIf_runState (c : Bool) (s : State) : (s.skipIf c).runState = s.runState := by cases c <;> rfl
@[simp] theorem skipIf_faultCause (c : Bool) (s : State) : (s.skipIf c).faultCause = s.faultCause := by cases c <;> rfl
@[simp] theorem skipIf_shouldPlaySound (c : Bool) (s : State) : (s.skipIf c).shouldPlaySound = s.shouldPlaySound := by cases c <;> rfl
@[simp] theorem skipIf_cfg (c : Bool) (s : State) : (s.skipIf c).cfg = s.cfg := by cases c <;> rfl
@[simp] theorem skipIf_key (c : Bool) (s : State) : (s.skipIf c).key = s.key := by cases c <;> rfl
@[simp] theorem skipIf_rnd (c : Bool) (s : State) : (s.skipIf c).rnd = s.rnd := by cases c <;> rfl
@[simp] theorem skipIf_inbox (c : Bool) (s : State) : (s.skipIf c).inbox = s.inbox := by cases c <;> rfl
@[simp] theorem skipIf_draws (c : Bool) (s : State) : (s.skipIf c).draws = s.draws := by cases c <;> rfl
@[simp] theorem skipIf_readV (c : Bool) (s : State) (i : Nibble) : (s.skipIf c).readV i = s.readV i := by cases c <;> rfl

/-! ### resetFlagQuirk -/

@[simp] theorem resetFlagQuirk_mem (s : State) : (s.resetFlagQuirk).mem = s.mem := by unfold State.resetFlagQuirk; split <;> rfl
@[simp] theorem resetFlagQuirk_I (s : State) : (s.resetFlagQuirk).I = s.I := by unfold State.resetFlagQuirk; split <;> rfl
@[simp] theorem resetFlagQuirk_pc (s : State) : (s.resetFlagQuirk).pc = s.pc := by unfold State.resetFlagQuirk; split <;> rfl
@[simp] theorem resetFlagQuirk_stack (s : State) : (s.resetFlagQuirk).stack = s.stack := by unfold State.resetFlagQuirk; split <;> rfl
@[simp] theorem resetFlagQuirk_SP (s : State) : (s.resetFlagQuirk).SP = s.SP := by unfold State.resetFlagQuirk; split <;> rfl
@[simp] theorem resetFlagQuirk_DT (s : State) : (s.resetFlagQuirk).DT = s.DT := by unfold State.resetFlagQuirk; split <;> rfl
@[simp] theorem resetFlagQuirk_ST (s : State) : (s.resetFlagQuirk).ST = s.ST := by unfold State.resetFlagQuirk; split <;> rfl
@[simp] theorem resetFlagQuirk_disp (s : State) : (s.resetFlagQuirk).disp = s.disp := by unfold State.resetFlagQuirk; split <;> rfl
@[simp] theorem resetFlagQuirk_kwActive (s : State) : (s.resetFlagQuirk).kwActive = s.kwActive := by unfold State.resetFlagQuirk; split <;> rfl
@[simp] theorem resetFlagQuirk_kwKey (s : State) : (s.resetFlagQuirk).kwKey = s.kwKey := by unfold State.resetFlagQuirk; split <;> rfl
@[simp] theorem resetFlagQuirk_drawNeeded (s : State) : (s.resetFlagQuirk).drawNeeded = s.drawNeeded := by unfold State.resetFlagQuirk; split <;> rfl
@[simp] theorem resetFlagQuirk_stepDrew (s : State) : (s.resetFlagQuirk).stepDrew = s.stepDrew := by unfold State.resetFlagQuirk; split <;> rfl
@[simp] theorem resetFlagQuirk_runState (s : State) : (s.resetFlagQuirk).runState = s.runState := by unfold State.resetFlagQuirk; split <;> rfl
@[simp] theorem resetFlagQuirk_faultCause (s : State) : (s.resetFlagQuirk).faultCause = s.faultCause := by unfold State.resetFlagQuirk; split <;> rfl
@[simp] theorem resetFlagQuirk_shouldPlaySound (s : State) : (s.resetFlagQuirk).shouldPlaySound = s.shouldPlaySound := by unfold State.resetFlagQuirk; split <;> rfl
@[simp] theorem resetFlagQuirk_cfg (s : State) : (s.resetFlagQuirk).cfg = s.cfg := by unfold State.resetFlagQuirk; split <;> rfl
@[simp] theorem resetFlagQuirk_key (s : State) : (s.resetFlagQuirk).key = s.key := by unfold State.resetFlagQuirk; split <;> rfl
@[simp] theorem resetFlagQuirk_rnd (s : State) : (s.resetFlagQuirk).rnd = s.rnd := by unfold State.resetFlagQuirk; split <;> rfl
@[simp] theorem resetFlagQuirk_inbox (s : State) : (s.resetFlagQuirk).inbox = s.inbox := by unfold State.resetFlagQuirk; split <;> rfl
@[simp] theorem resetFlagQuirk_draws (s : State) : (s.resetFlagQuirk).draws = s.draws := by unfold State.resetFlagQuirk; split <;> rfl

/-! ### bumpI -/

@[simp] theorem bumpI_mem (x : Nibble) (s : State) : (s.bumpI x).mem = s.mem := by unfold State.bumpI; split <;> rfl
@[simp] theorem bumpI_V (x : Nibble) (s : State) : (s.bumpI x).V = s.V := by unfold State.bumpI; split <;> rfl
@[simp] theorem bumpI_pc (x : Nibble) (s : State) : (s.bumpI x).pc = s.pc := by unfold State.bumpI; split <;> rfl
@[simp] theorem bumpI_stack (x : Nibble) (s : State) : (s.bumpI x).stack = s.stack := by unfold State.bumpI; split <;> rfl
@[simp] theorem bumpI_SP (x : Nibble) (s : State) : (s.bumpI x).SP = s.SP := by unfold State.bumpI; split <;> rfl
@[simp] theorem bumpI_DT (x : Nibble) (s : State) : (s.bumpI x).DT = s.DT := by unfold State.bumpI; split <;> rfl
@[simp] theorem bumpI_ST (x : Nibble) (s : State) : (s.bumpI x).ST = s.ST := by unfold State.bumpI; split <;> rfl
@[simp] theorem bumpI_disp (x : Nibble) (s : State) : (s.bumpI x).disp = s.disp := by unfold State.bumpI; split <;> rfl
@[simp] theorem bumpI_kwActive (x : Nibble) (s : State) : (s.bumpI x).kwActive = s.kwActive := by unfold State.bumpI; split <;> rfl
@[simp] theorem bumpI_kwKey (x : Nibble) (s : State) : (s.bumpI x).kwKey = s.kwKey := by unfold State.bumpI; split <;> rfl
@[simp] theorem bumpI_drawNeeded (x : Nibble) (s : State) : (s.bumpI x).drawNeeded = s.drawNeeded := by unfold State.bumpI; split <;> rfl
@[simp] theorem bumpI_stepDrew (x : Nibble) (s : State) : (s.bumpI x).stepDrew = s.stepDrew := by unfold State.bumpI; split <;> rfl
@[simp] theorem bumpI_runState (x : Nibble) (s : State) : (s.bumpI x).runState = s.runState := by unfold State.bumpI; split <;> rfl
@[simp] theorem bumpI_faultCause (x : Nibble) (s : State) : (s.bumpI x).faultCause = s.faultCause := by unfold State.bumpI; split <;> rfl
@[simp] theorem bumpI_shouldPlaySound (x : Nibble) (s : State) : (s.bumpI x).shouldPlaySound = s.shouldPlaySound := by unfold State.bumpI; split <;> rfl
@[simp] theorem bumpI_cfg (x : Nibble) (s : State) : (s.bumpI x).cfg = s.cfg := by unfold State.bumpI; split <;> rfl
@[simp] theorem bumpI_key (x : Nibble) (s : State) : (s.bumpI x).key = s.key := by unfold State.bumpI; split <;> rfl
@[simp] theorem bumpI_rnd (x : Nibble) (s : State) : (s.bumpI x).rnd = s.rnd := by unfold State.bumpI; split <;> rfl
@[simp] theorem bumpI_inbox (x : Nibble) (s : State) : (s.bumpI x).inbox = s.inbox := by unfold State.bumpI; split <;> rfl
@[simp] theorem bumpI_draws (x : Nibble) (s : State) : (s.bumpI x).draws = s.draws := by unfold State.bumpI; split <;> rfl
@[simp] theorem bumpI_readV (x : Nibble) (s : State) (i : Nibble) : (s.bumpI x).readV i = s.readV i := by unfold State.bumpI; split <;> rfl

/-! ### subtractInto -/

@[simp] theorem subtractInto_mem (x a b : Nibble) (s : State) : (s.subtractInto x a b).mem = s.mem := rfl
@[simp] theorem subtractInto_I (x a b : Nibble) (s : State) : (s.subtractInto x a b).I = s.I := rfl
@[simp] theorem subtractInto_pc (x a b : Nibble) (s : State) : (s.subtractInto x a b).pc = s.pc := rfl
@[simp] theorem subtractInto_stack (x a b : Nibble) (s : State) : (s.subtractInto x a b).stack = s.stack := rfl
@[simp] theorem subtractInto_SP (x a b : Nibble) (s : State) : (s.subtractInto x a b).SP = s.SP := rfl
@[simp] theorem subtractInto_DT (x a b : Nibble) (s : State) : (s.subtractInto x a b).DT = s.DT := rfl
@[simp] theorem subtractInto_ST (x a b : Nibble) (s : State) : (s.subtractInto x a b).ST = s.ST := rfl
@[simp] theorem subtractInto_disp (x a b : Nibble) (s : State) : (s.subtractInto x a b).disp = s.disp := rfl
@[simp] theorem subtractInto_kwActive (x a b : Nibble) (s : State) : (s.subtractInto x a b).kwActive = s.kwActive := rfl
@[simp] theorem subtractInto_kwKey (x a b : Nibble) (s : State) : (s.subtractInto x a b).kwKey = s.kwKey := rfl
@[simp] theorem subtractInto_drawNeeded (x a b : Nibble) (s : State) : (s.subtractInto x a b).drawNeeded = s.drawNeeded := rfl
@[simp] theorem subtractInto_stepDrew (x a b : Nibble) (s : State) : (s.subtractInto x a b).stepDrew = s.stepDrew := rfl
@[simp] theorem subtractInto_runState (x a b : Nibble) (s : State) : (s.subtractInto x a b).runState = s.runState := rfl
@[simp] theorem subtractInto_faultCause (x a b : Nibble) (s : State) : (s.subtractInto x a b).faultCause = s.faultCause := rfl
@[simp] theorem subtractInto_shouldPlaySound (x a b : Nibble) (s : State) : (s.subtractInto x a b).shouldPlaySound = s.shouldPlaySound := rfl
@[simp] theorem subtractInto_cfg (x a b : Nibble) (s : State) : (s.subtractInto x a b).cfg = s.cfg := rfl
@[simp] theorem subtractInto_key (x a b : Nibble) (s : State) : (s.subtractInto x a b).key = s.key := rfl
@[simp] theorem subtractInto_rnd (x a b : Nibble) (s : State) : (s.subtractInto x a b).rnd = s.rnd := rfl
@[simp] theorem subtractInto_inbox (x a b : Nibble) (s : State) : (s.subtractInto x a b).inbox = s.inbox := rfl
@[simp] theorem subtractInto_draws (x a b : Nibble) (s : State) : (s.subtractInto x a b).draws = s.draws := rfl

/-! ### Reading back a register -/

@[simp] theorem readV_writeV_self (x : Nibble) (v : Byte) (s : State) : (s.writeV x v).readV x = v := by
  simp [readV]

theorem readV_writeV_ne {x r : Nibble} (h : r ≠ x) (v : Byte) (s : State) : (s.writeV x v).readV r = s.readV r := by
  have : x.toNat ≠ r.toNat := fun e => h (BitVec.eq_of_toNat_eq e.symm)
  simp [readV, Vector.getElem_set_ne, this]

/-- One register read after one register write. -/
theorem readV_writeV (x r : Nibble) (v : Byte) (s : State) :
    (s.writeV x v).readV r = if r = x then v else s.readV r := by
  split
  · next h => subst h; simp
  · next h => exact readV_writeV_ne h v s

/-- Writing back what a register holds changes nothing. -/
theorem writeV_readV (x : Nibble) (s : State) : s.writeV x (s.readV x) = s := by
  cases s; simp [writeV, readV]

/-- The second of two writes to one register wins. -/
theorem writeV_writeV (x : Nibble) (v w : Byte) (s : State) : (s.writeV x v).writeV x w = s.writeV x w := by
  simp [writeV]

/-- Two register files are equal when every register reads the same. -/
theorem V_ext {s t : State} (h : ∀ r, s.readV r = t.readV r) : s.V = t.V := by
  apply Vector.ext
  intro i hi
  have e := h (BitVec.ofNat 4 i)
  simpa only [readV, BitVec.toNat_ofNat, Nat.mod_eq_of_lt hi] using e

end State

end Sys2Proof.Machine
end

