-- ==== Sys2Proof/Laws/Ops.lean ====
section
/-! SUPPORT. What each shared operation over registers, stack, memory and keys can do, said once. -/

namespace Sys2Proof.Machine

/-! ### Faults and guarded effects -/

theorem raiseIf_of_ok {bad : Bool} (h : bad = false) (c : FaultCause) (s e : State) : raiseIf bad c s e = .next e := by
  simp [raiseIf, h]

theorem raiseIf_of_bad {bad : Bool} (h : bad = true) (c : FaultCause) (s e : State) :
    raiseIf bad c s e = .next (s.raise c) := by simp [raiseIf, h]

/-- A guarded effect answers next: the fault when the check fails, else the effect. -/
theorem raiseIf_next {bad : Bool} {c : FaultCause} {s e t : State} (h : raiseIf bad c s e = .next t) :
    (bad = true ∧ t = s.raise c) ∨ (bad = false ∧ t = e) := by
  cases bad <;> simp_all [raiseIf]

namespace State

theorem outOfBounds_iff (count : Nat) (s : State) :
    s.outOfBounds count = true ↔ 0 < count ∧ 0xFFF < s.I.toNat + (count - 1) := by
  simp [outOfBounds]

theorem outOfBounds_false_iff (count : Nat) (s : State) :
    s.outOfBounds count = false ↔ s.I.toNat + count ≤ 0x1000 ∨ count = 0 := by
  simp [outOfBounds]; omega

/-! ### Stack -/

theorem push_eq_none_iff (w : Word) (s : State) : s.push w = none ↔ s.SP.val = 12 := by
  have := s.SP.isLt
  unfold push; split <;> simp <;> omega

/-- A push writes the entry at the cursor, moves the cursor up, and changes nothing else. -/
theorem push_eq_some {w : Word} {s t : State} (h : s.push w = some t) :
    ∃ hs : s.SP.val < 12, t = { s with stack := s.stack.set s.SP.val w hs, SP := ⟨s.SP.val + 1, by omega⟩ } := by
  unfold push at h
  split at h
  · next hs => exact ⟨hs, (Option.some.inj h).symm⟩
  · cases h

theorem push_of_lt (w : Word) {s : State} (hs : s.SP.val < 12) :
    s.push w = some { s with stack := s.stack.set s.SP.val w hs, SP := ⟨s.SP.val + 1, by omega⟩ } := by
  simp [push, hs]

theorem pop_eq_none_iff (s : State) : s.pop = none ↔ s.SP.val = 0 := by
  unfold pop; split <;> simp <;> omega

/-- A pop reads the entry below the cursor, moves the cursor down, and changes nothing else. -/
theorem pop_eq_some {a : Word} {s t : State} (h : s.pop = some (a, t)) :
    ∃ hs : 0 < s.SP.val, a = s.stack[s.SP.val - 1] ∧ t = { s with SP := ⟨s.SP.val - 1, by omega⟩ } := by
  unfold pop at h
  split at h
  · next hs =>
    obtain ⟨h1, h2⟩ := Prod.mk.inj (Option.some.inj h)
    exact ⟨hs, h1.symm, h2.symm⟩
  · cases h

theorem pop_of_pos {s : State} (hs : 0 < s.SP.val) :
    s.pop = some (s.stack[s.SP.val - 1], { s with SP := ⟨s.SP.val - 1, by omega⟩ }) := by
  simp [pop, hs]

/-! ### Block transfer of registers -/

/-- After a block load, the first `count` registers hold the bytes and the rest are unchanged. -/
theorem getElem_loadRegs (m : Memory) (base count : Nat) (V : Vector Byte 16) (i : Nat) (hi : i < 16) :
    (loadRegs m base count V)[i] = if i < count then m.read (base + i) else V[i] := by
  induction count with
  | zero => simp [loadRegs]
  | succ k ih =>
    rw [loadRegs, Vector.getElem_setIfInBounds, ih]
    by_cases h : k = i
    · subst h; simp
    · simp [h, show i < k + 1 ↔ i < k by omega]

theorem length_regsUpTo (x : Nibble) (s : State) : (s.regsUpTo x).length = x.toNat + 1 := by
  have := x.isLt
  simp [regsUpTo]; omega

theorem getD_regsUpTo (x : Nibble) (s : State) {k : Nat} (hk : k ≤ x.toNat) :
    (s.regsUpTo x).getD k 0 = s.readV (BitVec.ofNat 4 k) := by
  have := x.isLt
  have hk16 : k < 16 := by omega
  have e : (BitVec.ofNat 4 k).toNat = k := by simp [Nat.mod_eq_of_lt hk16]
  simp only [regsUpTo, readV, e, List.getD_eq_getElem?_getD]
  rw [List.getElem?_take_of_lt (by omega), List.getElem?_eq_getElem (by simpa using hk16)]
  simp

end State

/-! ### Keys -/

theorem lowestPressed_eq_none_iff (key : Word) : lowestPressed key = none ↔ ∀ k, k < 16 → key.getLsbD k = false := by
  simp [lowestPressed]

/-- The key latched is pressed, and no key below it is. -/
theorem lowestPressed_eq_some {key : Word} {k : Nibble} (h : lowestPressed key = some k) :
    key.getLsbD k.toNat = true ∧ ∀ j, j < k.toNat → key.getLsbD j = false := by
  simp only [lowestPressed, Option.map_eq_some_iff] at h
  obtain ⟨n, hn, rfl⟩ := h
  rw [List.find?_range_eq_some] at hn
  have hlt : n < 16 := by simpa using hn.2.1
  have e : (BitVec.ofNat 4 n).toNat = n := by simp [Nat.mod_eq_of_lt hlt]
  rw [e]
  exact ⟨hn.1, fun j hj => by simpa using hn.2.2 j hj⟩

theorem lowestPressed_isSome {key : Word} {k : Nat} (h : key.getLsbD k = true) : ∃ j, lowestPressed key = some j := by
  cases e : lowestPressed key with
  | some j => exact ⟨j, rfl⟩
  | none =>
    have hk : k < 16 := by
      by_contra hk
      rw [BitVec.getLsbD_of_ge _ _ (by omega)] at h; cases h
    rw [lowestPressed_eq_none_iff] at e
    simp [e k hk] at h

end Sys2Proof.Machine
end

