-- ==== Sys2Proof/Laws/PerInstr.lean ====
section
/-! SUPPORT. Statements about every instruction as syntax, one lemma per constructor. -/

namespace Sys2Proof

theorem toNat_shift_eq_fieldHi (w : Word) : (w >>> 12).toNat = (fieldHi w).toNat := by
  have := w.isLt
  rw [toNat_fieldHi, BitVec.toNat_ushiftRight, Nat.shiftRight_eq_div_pow]; omega

/-- The no-op space in terms of the fields. -/
theorem inNoOpSpace_eq (w : Word) : inNoOpSpace w =
    (match (fieldHi w).toNat with
    | 0x0 => !([0xE0, 0xEE] : List Byte).contains (fieldNN w)
    | 0x5 => fieldN w != 0
    | 0x8 => ([0x8, 0x9, 0xA, 0xB, 0xC, 0xD, 0xF] : List Nibble).contains (fieldN w)
    | 0x9 => fieldN w != 0
    | 0xE => !([0x9E, 0xA1] : List Byte).contains (fieldNN w)
    | 0xF => !([0x07, 0x0A, 0x15, 0x18, 0x1E, 0x29, 0x33, 0x55, 0x65] : List Byte).contains (fieldNN w)
    | _ => false) := by
  rw [← toNat_shift_eq_fieldHi]; rfl

/-- Whether a word is a no-op does not depend on bits 11:8: every condition of R87 is on the high nibble and NN or N. -/
theorem inNoOpSpace_packXNN (hi x : Nibble) (nn : Byte) : inNoOpSpace (packXNN hi x nn) = inNoOpSpace (packXNN hi 0 nn) := by
  have hN : ∀ y : Nibble, fieldN (packXNN hi y nn) = nn.setWidth 4 := fun y =>
    BitVec.eq_of_toNat_eq (by rw [toNat_fieldN, toNat_packXNN, BitVec.toNat_setWidth]; omega)
  rw [inNoOpSpace_eq, inNoOpSpace_eq, hN, hN, fieldHi_packXNN, fieldHi_packXNN, fieldNN_packXNN, fieldNN_packXNN]

namespace Laws.RoundTrip

/-- Decoding the word of a well-formed instruction gives the instruction back. -/
def Statement (i : Instr) : Prop := i.wellFormed = true → decodeWord (encode i) = i

theorem op00E0 (unexamined : Nibble) : Statement (.op00E0 unexamined) := by
  simp [Statement, encode, decodeWord, dispatch0, fieldHi_packXNN, fieldX_packXNN, fieldNN_packXNN]

theorem op00EE (unexamined : Nibble) : Statement (.op00EE unexamined) := by
  simp [Statement, encode, decodeWord, dispatch0, fieldHi_packXNN, fieldX_packXNN, fieldNN_packXNN]

theorem op1NNN (nnn : Addr12) : Statement (.op1NNN nnn) := by
  simp [Statement, encode, decodeWord, fieldHi_packNNN, fieldNNN_packNNN]

theorem op2NNN (nnn : Addr12) : Statement (.op2NNN nnn) := by
  simp [Statement, encode, decodeWord, fieldHi_packNNN, fieldNNN_packNNN]

theorem op3XNN (x : Nibble) (nn : Byte) : Statement (.op3XNN x nn) := by
  simp [Statement, encode, decodeWord, fieldHi_packXNN, fieldX_packXNN, fieldNN_packXNN]

theorem op4XNN (x : Nibble) (nn : Byte) : Statement (.op4XNN x nn) := by
  simp [Statement, encode, decodeWord, fieldHi_packXNN, fieldX_packXNN, fieldNN_packXNN]

theorem op5XY0 (x y : Nibble) : Statement (.op5XY0 x y) := by
  simp [Statement, encode, decodeWord, fieldHi_packXYN, fieldX_packXYN, fieldY_packXYN, fieldN_packXYN]

theorem op6XNN (x : Nibble) (nn : Byte) : Statement (.op6XNN x nn) := by
  simp [Statement, encode, decodeWord, fieldHi_packXNN, fieldX_packXNN, fieldNN_packXNN]

theorem op7XNN (x : Nibble) (nn : Byte) : Statement (.op7XNN x nn) := by
  simp [Statement, encode, decodeWord, fieldHi_packXNN, fieldX_packXNN, fieldNN_packXNN]

theorem op8XY0 (x y : Nibble) : Statement (.op8XY0 x y) := by
  simp [Statement, encode, decodeWord, dispatch8, fieldHi_packXYN, fieldX_packXYN, fieldY_packXYN, fieldN_packXYN]

theorem op8XY1 (x y : Nibble) : Statement (.op8XY1 x y) := by
  simp [Statement, encode, decodeWord, dispatch8, fieldHi_packXYN, fieldX_packXYN, fieldY_packXYN, fieldN_packXYN]

theorem op8XY2 (x y : Nibble) : Statement (.op8XY2 x y) := by
  simp [Statement, encode, decodeWord, dispatch8, fieldHi_packXYN, fieldX_packXYN, fieldY_packXYN, fieldN_packXYN]

theorem op8XY3 (x y : Nibble) : Statement (.op8XY3 x y) := by
  simp [Statement, encode, decodeWord, dispatch8, fieldHi_packXYN, fieldX_packXYN, fieldY_packXYN, fieldN_packXYN]

theorem op8XY4 (x y : Nibble) : Statement (.op8XY4 x y) := by
  simp [Statement, encode, decodeWord, dispatch8, fieldHi_packXYN, fieldX_packXYN, fieldY_packXYN, fieldN_packXYN]

theorem op8XY5 (x y : Nibble) : Statement (.op8XY5 x y) := by
  simp [Statement, encode, decodeWord, dispatch8, fieldHi_packXYN, fieldX_packXYN, fieldY_packXYN, fieldN_packXYN]

theorem op8XY6 (x y : Nibble) : Statement (.op8XY6 x y) := by
  simp [Statement, encode, decodeWord, dispatch8, fieldHi_packXYN, fieldX_packXYN, fieldY_packXYN, fieldN_packXYN]

theorem op8XY7 (x y : Nibble) : Statement (.op8XY7 x y) := by
  simp [Statement, encode, decodeWord, dispatch8, fieldHi_packXYN, fieldX_packXYN, fieldY_packXYN, fieldN_packXYN]

theorem op8XYE (x y : Nibble) : Statement (.op8XYE x y) := by
  simp [Statement, encode, decodeWord, dispatch8, fieldHi_packXYN, fieldX_packXYN, fieldY_packXYN, fieldN_packXYN]

theorem op9XY0 (x y : Nibble) : Statement (.op9XY0 x y) := by
  simp [Statement, encode, decodeWord, fieldHi_packXYN, fieldX_packXYN, fieldY_packXYN, fieldN_packXYN]

theorem opANNN (nnn : Addr12) : Statement (.opANNN nnn) := by
  simp [Statement, encode, decodeWord, fieldHi_packNNN, fieldNNN_packNNN]

theorem opBNNN (nnn : Addr12) : Statement (.opBNNN nnn) := by
  simp [Statement, encode, decodeWord, fieldHi_packNNN, fieldNNN_packNNN]

theorem opCXNN (x : Nibble) (nn : Byte) : Statement (.opCXNN x nn) := by
  simp [Statement, encode, decodeWord, fieldHi_packXNN, fieldX_packXNN, fieldNN_packXNN]

theorem opDXYN (x y n : Nibble) : Statement (.opDXYN x y n) := by
  simp [Statement, encode, decodeWord, fieldHi_packXYN, fieldX_packXYN, fieldY_packXYN, fieldN_packXYN]

theorem opEX9E (x : Nibble) : Statement (.opEX9E x) := by
  simp [Statement, encode, decodeWord, dispatchE, fieldHi_packXNN, fieldX_packXNN, fieldNN_packXNN]

theorem opEXA1 (x : Nibble) : Statement (.opEXA1 x) := by
  simp [Statement, encode, decodeWord, dispatchE, fieldHi_packXNN, fieldX_packXNN, fieldNN_packXNN]

theorem opFX07 (x : Nibble) : Statement (.opFX07 x) := by
  simp [Statement, encode, decodeWord, dispatchF, fieldHi_packXNN, fieldX_packXNN, fieldNN_packXNN]

theorem opFX0A (x : Nibble) : Statement (.opFX0A x) := by
  simp [Statement, encode, decodeWord, dispatchF, fieldHi_packXNN, fieldX_packXNN, fieldNN_packXNN]

theorem opFX15 (x : Nibble) : Statement (.opFX15 x) := by
  simp [Statement, encode, decodeWord, dispatchF, fieldHi_packXNN, fieldX_packXNN, fieldNN_packXNN]

theorem opFX18 (x : Nibble) : Statement (.opFX18 x) := by
  simp [Statement, encode, decodeWord, dispatchF, fieldHi_packXNN, fieldX_packXNN, fieldNN_packXNN]

theorem opFX1E (x : Nibble) : Statement (.opFX1E x) := by
  simp [Statement, encode, decodeWord, dispatchF, fieldHi_packXNN, fieldX_packXNN, fieldNN_packXNN]

theorem opFX29 (x : Nibble) : Statement (.opFX29 x) := by
  simp [Statement, encode, decodeWord, dispatchF, fieldHi_packXNN, fieldX_packXNN, fieldNN_packXNN]

theorem opFX33 (x : Nibble) : Statement (.opFX33 x) := by
  simp [Statement, encode, decodeWord, dispatchF, fieldHi_packXNN, fieldX_packXNN, fieldNN_packXNN]

theorem opFX55 (x : Nibble) : Statement (.opFX55 x) := by
  simp [Statement, encode, decodeWord, dispatchF, fieldHi_packXNN, fieldX_packXNN, fieldNN_packXNN]

theorem opFX65 (x : Nibble) : Statement (.opFX65 x) := by
  simp [Statement, encode, decodeWord, dispatchF, fieldHi_packXNN, fieldX_packXNN, fieldNN_packXNN]

theorem nop (word : Word) : Statement (.nop word) := by
  intro h
  simp only [Instr.wellFormed, inNoOpSpace_eq] at h
  simp only [encode, decodeWord]
  split <;> simp_all [dispatch0, dispatch8, dispatchE]
  · rcases h with h | h | h | h | h | h | h <;> simp [h]
  · have : (fieldHi word).toNat = 15 := by have := (fieldHi word).isLt; omega
    simp_all [dispatchF]

end Laws.RoundTrip

end Sys2Proof
end

