-- ==== Sys2Proof/Laws/Sprite.lean ====
section
/-! SUPPORT. The loops of the sprite drawer, pixel by pixel: each set bit inside the edges flips its pixel once, and the
collision flag is the OR of R103. -/

namespace Sys2Proof.Machine

namespace Display

theorem pixel_of_lt (d : Display) (x : Nat) {y : Nat} (hy : y < 32) : d.pixel x y = d[y].getLsbD x := by
  simp [pixel, hy]

theorem pixel_of_le_y (d : Display) (x : Nat) {y : Nat} (hy : 32 ≤ y) : d.pixel x y = false := by
  simp [pixel, show ¬ y < 32 by omega]

theorem pixel_of_le_x (d : Display) {x : Nat} (y : Nat) (hx : 64 ≤ x) : d.pixel x y = false := by
  simp [pixel, BitVec.getLsbD_of_ge _ _ hx]

theorem pixel_blank (x y : Nat) : blank.pixel x y = false := by
  by_cases hy : y < 32
  · rw [pixel_of_lt _ _ hy]; simp [blank]
  · exact pixel_of_le_y _ _ (by omega)

/-- A flip inside the edges changes its own pixel and no other. -/
theorem pixel_flip (d : Display) {x y : Nat} (hx : x < 64) (hy : y < 32) (x' y' : Nat) :
    (d.flip x y).pixel x' y' = (d.pixel x' y' ^^ decide (x' = x ∧ y' = y)) := by
  by_cases hy' : y' < 32
  · rw [pixel_of_lt _ _ hy', pixel_of_lt _ _ hy', flip, Vector.getElem_setIfInBounds]
    by_cases e : y = y'
    · subst e
      simp [hy, BitVec.getLsbD_xor, BitVec.getLsbD_twoPow, hx, eq_comm]
    · simp [e, show y' ≠ y from fun h => e h.symm]
  · rw [pixel_of_le_y _ _ (by omega), pixel_of_le_y _ _ (by omega)]
    simp [show y' ≠ y by omega]

/-- Two displays with the same pixels are the same. -/
theorem ext_pixel {d d' : Display} (h : ∀ x y, x < 64 → y < 32 → d.pixel x y = d'.pixel x y) : d = d' := by
  apply Vector.ext
  intro y hy
  apply BitVec.eq_of_getLsbD_eq
  intro x hx
  simpa [pixel_of_lt, hy] using h x y hx hy

end Display

/-- The set bits of one sprite row that the columns `c .. c+fuel-1` draw. -/
def rowBit (b : Byte) (x0 y c fuel x' y' : Nat) : Bool :=
  decide (y' = y ∧ x0 + c ≤ x' ∧ x' < x0 + c + fuel ∧ x' < 64) && b.getLsbD (7 - (x' - x0))

theorem drawColumns_spec (b : Byte) (x0 y : Nat) (hy : y < 32) (fuel c : Nat) (k : Canvas) :
    (∀ x' y', (drawColumns b x0 y fuel c k).disp.pixel x' y' = (k.disp.pixel x' y' ^^ rowBit b x0 y c fuel x' y')) ∧
    ((drawColumns b x0 y fuel c k).collided = true ↔
      k.collided = true ∨ ∃ x' y', rowBit b x0 y c fuel x' y' = true ∧ k.disp.pixel x' y' = true) := by
  induction fuel generalizing c k with
  | zero =>
    have h0 : ∀ x' y', rowBit b x0 y c 0 x' y' = false := by
      intro x' y'; simp only [rowBit, Bool.and_eq_false_imp, decide_eq_true_eq]; intro h; omega
    simp [drawColumns, h0]
  | succ fuel ih =>
    unfold drawColumns
    split
    · next hw =>
      have h0 : ∀ x' y', rowBit b x0 y c (fuel + 1) x' y' = false := by
        intro x' y'; simp only [rowBit, Bool.and_eq_false_imp, decide_eq_true_eq]
        simp only [Config.W] at hw; intro h; omega
      simp [h0]
    · next hw =>
      simp only [Config.W, not_le] at hw
      have hrow : ∀ x' y', rowBit b x0 y c (fuel + 1) x' y' =
          (rowBit b x0 y (c + 1) fuel x' y' || (decide (x' = x0 + c ∧ y' = y) && b.getLsbD (7 - c))) := by
        intro x' y'
        by_cases e : x' = x0 + c
        · subst e
          have e2 : x0 + c - x0 = c := by omega
          simp [rowBit, e2, hw, show ¬ x0 + (c + 1) ≤ x0 + c by omega]
        · simp only [rowBit, e, false_and, decide_false, Bool.false_and, Bool.or_false]
          congr 1
          simp only [decide_eq_decide]; omega
      have hdis : ∀ x' y', (x' = x0 + c ∧ y' = y) → rowBit b x0 y (c + 1) fuel x' y' = false := by
        rintro x' y' ⟨rfl, rfl⟩; simp [rowBit]
      obtain ⟨ihp, ihc⟩ := ih (c + 1) (if b.getLsbD (7 - c) then k.plot (x0 + c) y else k)
      constructor
      · intro x' y'
        rw [ihp, hrow]
        cases hb : b.getLsbD (7 - c)
        · simp
        · simp only [if_true, Canvas.plot, Display.pixel_flip _ hw hy, Bool.and_true]
          by_cases e : x' = x0 + c ∧ y' = y
          · simp [e, hdis _ _ ⟨rfl, rfl⟩]
          · simp [e]
      · rw [ihc]
        cases hb : b.getLsbD (7 - c)
        · simp [hrow, hb]
        · simp only [if_true, Canvas.plot, Bool.or_eq_true]
          constructor
          · rintro ((h | h) | ⟨x', y', h1, h2⟩)
            · exact .inl h
            · exact .inr ⟨x0 + c, y, by simp [hrow, hb], h⟩
            · refine .inr ⟨x', y', by simp [hrow, h1], ?_⟩
              rw [Display.pixel_flip _ hw hy] at h2
              by_cases e : x' = x0 + c ∧ y' = y
              · rw [hdis x' y' e] at h1; cases h1
              · simpa [e] using h2
          · rintro (h | ⟨x', y', h1, h2⟩)
            · exact .inl (.inl h)
            · by_cases e : x' = x0 + c ∧ y' = y
              · obtain ⟨rfl, rfl⟩ := e; exact .inl (.inr h2)
              · refine .inr ⟨x', y', ?_, ?_⟩
                · simpa [hrow, e] using h1
                · rw [Display.pixel_flip _ hw hy]; simpa [e] using h2

/-- The set bits of the sprite rows `r .. r+fuel-1`. -/
def rowsBit (m : Memory) (base x0 y0 r fuel x' y' : Nat) : Bool :=
  decide (y0 + r ≤ y' ∧ y' < y0 + r + fuel ∧ x0 ≤ x' ∧ x' < x0 + 8 ∧ x' < 64) &&
    (m.read (base + (y' - y0))).getLsbD (7 - (x' - x0))

theorem drawRows_spec (m : Memory) (base x0 y0 : Nat) (fuel r : Nat) (h : y0 + r + fuel ≤ 32) (k : Canvas) :
    (∀ x' y', (drawRows m base x0 y0 fuel r k).disp.pixel x' y' =
      (k.disp.pixel x' y' ^^ rowsBit m base x0 y0 r fuel x' y')) ∧
    ((drawRows m base x0 y0 fuel r k).collided = true ↔
      k.collided = true ∨ ∃ x' y', rowsBit m base x0 y0 r fuel x' y' = true ∧ k.disp.pixel x' y' = true) := by
  induction fuel generalizing r k with
  | zero =>
    have h0 : ∀ x' y', rowsBit m base x0 y0 r 0 x' y' = false := by
      intro x' y'; simp only [rowsBit, Bool.and_eq_false_imp, decide_eq_true_eq]; intro h; omega
    simp [drawRows, h0]
  | succ fuel ih =>
    obtain ⟨cp, cc⟩ := drawColumns_spec (m.read (base + r)) x0 (y0 + r) (by omega) 8 0 k
    obtain ⟨ihp, ihc⟩ := ih (r + 1) (by omega) (drawRow (m.read (base + r)) x0 (y0 + r) k)
    unfold drawRows
    have hrow : ∀ x' y', rowsBit m base x0 y0 r (fuel + 1) x' y' =
        (rowsBit m base x0 y0 (r + 1) fuel x' y' || rowBit (m.read (base + r)) x0 (y0 + r) 0 8 x' y') := by
      intro x' y'
      by_cases e : y' = y0 + r
      · subst e
        have e2 : y0 + r - y0 = r := by omega
        simp [rowsBit, rowBit, e2, show ¬ y0 + (r + 1) ≤ y0 + r by omega]
      · simp only [rowsBit, rowBit, e, false_and, decide_false, Bool.false_and, Bool.or_false]
        congr 1
        simp only [decide_eq_decide]; omega
    have hdis : ∀ x' y', rowsBit m base x0 y0 (r + 1) fuel x' y' = true →
        rowBit (m.read (base + r)) x0 (y0 + r) 0 8 x' y' = false := by
      intro x' y' h1
      simp only [rowsBit, Bool.and_eq_true, decide_eq_true_eq] at h1
      simp only [rowBit, Bool.and_eq_false_imp, decide_eq_true_eq]; intro h2; omega
    constructor
    · intro x' y'
      rw [ihp, hrow, drawRow, cp]
      cases h1 : rowsBit m base x0 y0 (r + 1) fuel x' y'
      · simp
      · simp [hdis x' y' h1]
    · rw [ihc]
      simp only [drawRow, cc, cp]
      constructor
      · rintro ((h1 | ⟨x', y', h1, h2⟩) | ⟨x', y', h1, h2⟩)
        · exact .inl h1
        · exact .inr ⟨x', y', by simp [hrow, h1], h2⟩
        · exact .inr ⟨x', y', by simp [hrow, h1], by simpa [hdis x' y' h1] using h2⟩
      · rintro (h1 | ⟨x', y', h1, h2⟩)
        · exact .inl (.inl h1)
        · rw [hrow, Bool.or_eq_true] at h1
          rcases h1 with h1 | h1
          · exact .inr ⟨x', y', h1, by simpa [hdis x' y' h1] using h2⟩
          · exact .inl (.inr ⟨x', y', h1, h2⟩)

/-- What DXYN draws: every set bit of the sprite flips its pixel, and nothing else changes (R101). -/
theorem drawn_pixel (xr yr n : Nibble) (s : State) (x y : Nat) :
    (s.drawn xr yr n).disp.pixel x y = (s.disp.pixel x y ^^ spriteBit xr yr n s x y) := by
  have hr : s.anchorY yr + 0 + s.visibleRows yr n ≤ 32 := by
    have : s.anchorY yr < 32 := Nat.mod_lt _ (by decide)
    simp only [State.visibleRows, Config.H]; omega
  rw [State.drawn, (drawRows_spec _ _ _ _ _ _ hr _).1]
  simp only [rowsBit, spriteBit, Nat.add_zero, Config.W]

/-- The collision flag is the OR of R103. -/
theorem drawn_collided (xr yr n : Nibble) (s : State) :
    (s.drawn xr yr n).collided = true ↔ SpriteCollides xr yr n s := by
  have hr : s.anchorY yr + 0 + s.visibleRows yr n ≤ 32 := by
    have : s.anchorY yr < 32 := Nat.mod_lt _ (by decide)
    simp only [State.visibleRows, Config.H]; omega
  rw [State.drawn, (drawRows_spec _ _ _ _ _ _ hr _).2]
  simp only [Bool.false_eq_true, false_or, SpriteCollides, rowsBit, spriteBit, Nat.add_zero, Config.W]

end Sys2Proof.Machine
end

