-- ==== Sys2Proof/Laws/Step.lean ====
section
/-! SUPPORT. What a step can do, said once: which request it serves, and what serving each one answers. -/

namespace Sys2Proof.Machine

/-! ### The step -/

theorem step_of_nil {s : State} (h : s.inbox = []) : step s = unattendedStep s := by simp [step, cycle, h]

theorem step_of_cons {s : State} {r : Request} {rest : List Request} (h : s.inbox = r :: rest) :
    step s = serve r (s.setInbox rest) := by simp [step, cycle, h]

theorem runInstruction_of_bad {s : State} (h : 0xFFE ≤ s.pc.toNat) :
    runInstruction s = .next (s.clearStepDrew.advance.raise .pcOutOfBounds) := by
  have : s.clearStepDrew.pcOutOfBounds = true := decide_eq_true (show 4095 < s.pc.toNat + 2 by omega)
  simp [runInstruction, this]

theorem runInstruction_of_ok {s : State} (h : s.pc.toNat < 0xFFE) :
    runInstruction s = exec (decodeWord s.fetchWord) s.clearStepDrew.advance := by
  have : s.clearStepDrew.pcOutOfBounds = false := decide_eq_false (show ¬ 4095 < s.pc.toNat + 2 by omega)
  simp only [runInstruction, this, Bool.false_eq_true, if_false]
  rfl

theorem unattendedStep_running {s : State} (h : s.runState = .running) :
    unattendedStep s = runInstruction s.drawFree := by simp [unattendedStep, h]

theorem unattendedStep_stopped {s : State} (h : s.runState ≠ .running) :
    unattendedStep s = .next s.clearStepDrew := by
  unfold unattendedStep; split <;> simp_all

theorem stepRequest_running {s : State} (h : s.runState = .running) (key : Word) (rnd : Byte) :
    stepRequest key rnd s = runInstruction (s.sample key rnd) := by simp [stepRequest, h]

theorem stepRequest_stopped {s : State} (h : s.runState ≠ .running) (key : Word) (rnd : Byte) :
    stepRequest key rnd s = .next s.clearStepDrew := by
  unfold stepRequest; split <;> simp_all

/-! ### The other requests -/

theorem tick_quit {s : State} (h : s.runState = .quit) : s.tick = s := by simp [State.tick, h]

theorem tick_live {s : State} (h : s.runState ≠ .quit) :
    s.tick = { s with DT := countDown s.DT, ST := countDown s.ST, shouldPlaySound := decide (countDown s.ST ≠ 0) } := by
  unfold State.tick; split <;> simp_all

/-- A tick changes the timers and the sound output, nothing else. -/
theorem tick_frame (s : State) : { s.tick with DT := s.DT, ST := s.ST, shouldPlaySound := s.shouldPlaySound } = s := by
  unfold State.tick; split <;> rfl

theorem changeRunState_next {s t : State} {wanted : RunState} (h : s.changeRunState wanted = .next t) :
    t = { s with runState := wanted } ∧ (s.runState = .quit → wanted = .quit) := by
  unfold State.changeRunState at h
  split at h
  · next e => cases h; subst e; exact ⟨rfl, fun h => h⟩
  · split at h
    · cases h
    · next hq => cases h; exact ⟨rfl, fun h => absurd h hq⟩

theorem load_next {s t : State} {rom : List Byte} (h : s.load rom = .next t) : rom.length ≤ 3584 ∧ t = s.loaded rom := by
  unfold State.load at h
  split at h
  · cases h
  · next hr => cases h; simp only [Config.maxRom] at hr; exact ⟨by omega, rfl⟩

theorem admissible_iff (p : Snapshot) :
    p.admissible = true ↔ p.SP ≤ 12 ∧ p.kwKey ≤ 15 ∧ p.disp.length = 2048 ∧ p.mem.wf = true := by
  simp [Snapshot.admissible, and_assoc]

theorem quitForbids_iff (p : Snapshot) (s : State) :
    s.quitForbids p = true ↔ s.runState = .quit ∧ (p.runState ≠ .quit ∨ p.faultCause ≠ s.faultCause) :=
  decide_eq_true_iff

/-- What a restore can answer: the three cases, with the condition of each. -/
theorem restore_cases (p : Snapshot) (s : State) :
    (p.admissible = false ∧ s.restore p = .refused .snapshotInvalid) ∨
    (p.admissible = true ∧ s.quitForbids p = true ∧ s.restore p = .refused .quitIsFinal) ∨
    (p.admissible = true ∧ s.quitForbids p = false ∧ s.restore p = .next (s.replacedBy p)) := by
  unfold State.restore
  cases p.admissible <;> cases s.quitForbids p <;> simp

/-- A served restore keeps Quit and its fault cause (R254, R259). -/
theorem restore_next {s t : State} {p : Snapshot} (h : s.restore p = .next t) :
    p.admissible = true ∧ t = s.replacedBy p ∧
      (s.runState = .quit → t.runState = .quit ∧ t.faultCause = s.faultCause) := by
  obtain ⟨-, e⟩ | ⟨-, -, e⟩ | ⟨ha, hq, e⟩ := restore_cases p s <;> rw [e] at h <;> cases h
  refine ⟨ha, rfl, fun hs => ?_⟩
  have hn : ¬ (p.runState ≠ .quit ∨ p.faultCause ≠ s.faultCause) := fun hc => by
    rw [(quitForbids_iff p s).mpr ⟨hs, hc⟩] at hq; cases hq
  exact ⟨Decidable.byContradiction fun c => hn (.inl c), Decidable.byContradiction fun c => hn (.inr c)⟩

end Sys2Proof.Machine
end

