-- ==== Sys2Proof/Laws/Platform.lean ====
section
/-! SUPPORT. Memory after a load, and displays to and from their pixels. -/

namespace Sys2Proof.Machine

/-! ### Load -/

theorem length_defaultFontBytes : defaultFontBytes.length = 80 := by decide

theorem unlisted_of_le {a : Nat} (h : 80 ≤ a) : Memory.unlisted a = 0 := by
  rw [Memory.unlisted, List.getD_eq_default]; rw [length_defaultFontBytes]; exact h

theorem wf_fontMem (cfg : Config) : (Memory.storeBytes [] 0 cfg.font.toList).wf = true :=
  Memory.wf_storeBytes rfl (by simp)

/-- The loaded memory is canonical. -/
theorem wf_loadedMem (cfg : Config) {rom : List Byte} (h : rom.length ≤ 3584) : (State.loadedMem cfg rom).wf = true :=
  Memory.wf_storeBytes (wf_fontMem cfg) (by simp only [Config.progBase]; omega)

/-- What each address of a loaded memory reads as: the font, the ROM, 0 elsewhere (R44). -/
theorem read_loadedMem (cfg : Config) {rom : List Byte} (h : rom.length ≤ 3584) (a : Nat) :
    (State.loadedMem cfg rom).read a =
      if a < 80 then cfg.font.toList.getD a 0
      else if 0x200 ≤ a ∧ a < 0x200 + rom.length then rom.getD (a - 0x200) 0 else 0 := by
  rw [State.loadedMem, Memory.read_storeBytes (wf_fontMem cfg) (by simp only [Config.progBase]; omega),
    Memory.read_storeBytes rfl (by simp)]
  simp only [Config.progBase, Vector.length_toList, Nat.zero_add, Nat.sub_zero, Nat.zero_le, true_and, Memory.read_nil]
  by_cases h1 : a < 80
  · rw [if_neg (by omega), if_pos h1, if_pos h1]
  · rw [if_neg h1, if_neg h1]
    split
    · rfl
    · exact unlisted_of_le (by omega)

/-! ### Pixels of a snapshot -/

theorem pixel_ofPixels (l : List Bool) (x y : Nat) (hx : x < 64) (hy : y < 32) :
    (Display.ofPixels l).pixel x y = l.getD (y * 64 + x) false := by
  rw [Display.pixel_of_lt _ _ hy]
  simp only [Display.ofPixels, Vector.getElem_ofFn, BitVec.getLsbD_setWidth, BitVec.getLsbD_ofBoolListLE, Config.W, hx,
    decide_true, Bool.true_and, List.getD_eq_getElem?_getD, List.getElem?_take, List.getElem?_drop, if_true]

/-- Saving a display and reading it back gives the display. -/
theorem ofPixels_save (s : State) : Display.ofPixels s.save.disp = s.disp := by
  apply Display.ext_pixel
  intro x y hx hy
  rw [pixel_ofPixels _ _ _ hx hy]
  have h : y * 64 + x < 2048 := by omega
  have e1 : (y * 64 + x) % 64 = x := by omega
  have e2 : (y * 64 + x) / 64 = y := by omega
  simp [State.save, List.getD_eq_getElem?_getD, h, e1, e2]

end Sys2Proof.Machine
end

