-- ==== Sys2Proof/Tests/Slice0.lean ====
section
/-! SUPPORT. The model's own tests: ill-formed terms refused, words spelled out from the spec's encodings decoded, one-step
vectors of spec/95_test_vectors.md (each test names its vector: the expected values are the spec's), and for every
obligation with hypotheses a state that meets them, at the boundary values of its clauses. -/

namespace Sys2Proof.Tests

open Sys2Proof Sys2Proof.Machine

/-! ## WellFormed: a no-op that holds a word of some other row is refused, family by family (R87) -/

theorem test_nop_of_clear_refused : (Instr.nop 0x00E0).wellFormed = false := by decide
theorem test_nop_of_unexamined_return_refused : (Instr.nop 0x0FEE).wellFormed = false := by decide
theorem test_nop_of_jump_refused : (Instr.nop 0x1234).wellFormed = false := by decide
theorem test_nop_of_skip_refused : (Instr.nop 0x5120).wellFormed = false := by decide
theorem test_nop_of_alu_refused : (Instr.nop 0x801E).wellFormed = false := by decide
theorem test_nop_of_skip_not_refused : (Instr.nop 0x9120).wellFormed = false := by decide
theorem test_nop_of_key_skip_refused : (Instr.nop 0xE5A1).wellFormed = false := by decide
theorem test_nop_of_load_refused : (Instr.nop 0xF065).wellFormed = false := by decide
theorem test_nop_words_accepted :
    ([0x0000, 0x00FE, 0x5121, 0x8018, 0x800F, 0x9121, 0xE09F, 0xF030, 0xF075].all fun w =>
      (Instr.nop w).wellFormed) = true := by decide

/-! ## Decode: a word of each row, written out from its encoding (R71, R75-R81) -/

theorem test_decode_display_and_flow :
    decodeWord 0x00E0 = .op00E0 0 ∧ decodeWord 0x01E0 = .op00E0 1 ∧ decodeWord 0x00EE = .op00EE 0 ∧
    decodeWord 0x0FEE = .op00EE 0xF ∧ decodeWord 0x1234 = .op1NNN 0x234 ∧ decodeWord 0x2208 = .op2NNN 0x208 ∧
    decodeWord 0xB300 = .opBNNN 0x300 ∧ decodeWord 0xD234 = .opDXYN 2 3 4 := by decide
theorem test_decode_skips :
    decodeWord 0x3312 = .op3XNN 3 0x12 ∧ decodeWord 0x4313 = .op4XNN 3 0x13 ∧ decodeWord 0x5120 = .op5XY0 1 2 ∧
    decodeWord 0x9120 = .op9XY0 1 2 ∧ decodeWord 0xE59E = .opEX9E 5 ∧ decodeWord 0xE5A1 = .opEXA1 5 := by decide
theorem test_decode_alu :
    decodeWord 0x6A5C = .op6XNN 0xA 0x5C ∧ decodeWord 0x70FF = .op7XNN 0 0xFF ∧ decodeWord 0x8120 = .op8XY0 1 2 ∧
    decodeWord 0x8F11 = .op8XY1 0xF 1 ∧ decodeWord 0x8342 = .op8XY2 3 4 ∧ decodeWord 0x8343 = .op8XY3 3 4 ∧
    decodeWord 0x80F4 = .op8XY4 0 0xF ∧ decodeWord 0x8235 = .op8XY5 2 3 ∧ decodeWord 0x8016 = .op8XY6 0 1 ∧
    decodeWord 0x8017 = .op8XY7 0 1 ∧ decodeWord 0x840E = .op8XYE 4 0 ∧ decodeWord 0xC30F = .opCXNN 3 0x0F := by decide
theorem test_decode_index_timers_keys :
    decodeWord 0xA300 = .opANNN 0x300 ∧ decodeWord 0xF21E = .opFX1E 2 ∧ decodeWord 0xF129 = .opFX29 1 ∧
    decodeWord 0xF033 = .opFX33 0 ∧ decodeWord 0xFF55 = .opFX55 0xF ∧ decodeWord 0xF265 = .opFX65 2 ∧
    decodeWord 0xF307 = .opFX07 3 ∧ decodeWord 0xF30A = .opFX0A 3 ∧ decodeWord 0xF015 = .opFX15 0 ∧
    decodeWord 0xF118 = .opFX18 1 := by decide
theorem test_decode_no_ops :
    decodeWord 0x0000 = .nop 0x0000 ∧ decodeWord 0x00FE = .nop 0x00FE ∧ decodeWord 0x5121 = .nop 0x5121 ∧
    decodeWord 0x8018 = .nop 0x8018 ∧ decodeWord 0x800F = .nop 0x800F ∧ decodeWord 0x9121 = .nop 0x9121 ∧
    decodeWord 0xE09F = .nop 0xE09F ∧ decodeWord 0xF030 = .nop 0xF030 := by decide
/-- T-E2: the fields of D234. -/
theorem test_fields :
    fieldNNN 0xD234 = 0x234 ∧ fieldNN 0xD234 = 0x34 ∧ fieldN 0xD234 = 4 ∧ fieldX 0xD234 = 2 ∧ fieldY 0xD234 = 3 := by decide
theorem test_decode_too_short : decode [] = .error .truncated ∧ decode [0x12] = .error .truncated := by decide
theorem test_decode_big_endian : decode [0x12, 0x34, 0x56] = .ok (.op1NNN 0x234, [0x56]) := by decide
theorem test_encode_words :
    encode (.op8XYE 4 0) = 0x840E ∧ encode (.op1NNN 0x234) = 0x1234 ∧ encode (.opDXYN 2 3 4) = 0xD234 ∧
    encodeBytes (.opFX65 2) = [0xF2, 0x65] := by decide
theorem test_table_word : decodeTableWord 16 0x8014 = some (.op8XY4 0 1) ∧ decodeTableWord 16 0xF065 = some (.opFX65 0) := by
  decide

/-! ## One-step vectors -/

/-- The state after a vector's step: the word placed at pc, then one step request with these inputs. -/
def after (w : Nat) (s : State) (key : Word := 0) (rnd : Byte := 0) : State :=
  match step { s.withFetchWord 16 w with inbox := [.step key rnd] } with
  | .next t => t
  | .fault _ => s
  | .refused _ => s

/-- Reset, with some registers set. -/
def regs (l : List (Nibble × Byte)) : State := l.foldl (fun s p => s.writeV p.1 p.2) State.reset

/-- The same under SCHIP. -/
def schip (s : State) : State := s.withVariant .schip

/-- Reset with a byte of memory set. -/
def poke (l : List (Nat × Byte)) (s : State) : State := s.setMem (l.foldl (fun m p => m.write p.1 p.2) s.mem)

/-- T-D1, from a display with the two corner pixels on. -/
theorem test_00E0_clears :
    let t := after 0x00E0 { State.reset with disp := (State.reset.disp.flip 0 0).flip 63 31 }
    t.disp = Display.blank ∧ t.drawNeeded = true ∧ t.stepDrew = true ∧ t.pc = 0x202 := by decide
/-- T-D3: the anchor wraps, the bottom edge clips, VF is 0. -/
theorem test_DXYN_wraps_anchor_and_clips :
    let t := after 0xD015 (regs [(0, 0x45), (1, 0x1E)])
    t.disp[29] = 0 ∧ t.disp[30] = 0x1E0 ∧ t.disp[31] = 0x120 ∧ t.disp[0] = 0 ∧ t.readV 0xF = 0 ∧ t.pc = 0x202 := by decide
/-- T-D6: a set bit on an on pixel turns it off and sets VF. -/
theorem test_DXYN_collides :
    let t := after 0xD011 { State.reset with disp := State.reset.disp.flip 0 0 }
    t.disp[0] = 0xE ∧ t.readV 0xF = 1 ∧ t.drawNeeded = true := by decide
/-- T-C4. -/
theorem test_00EE_pops :
    let t := after 0x00EE { State.reset with pc := 0x20E, SP := 1, stack := State.reset.stack.set 0 0x202 }
    t.SP = 0 ∧ t.pc = 0x202 ∧ t.stack[0] = 0x202 := by decide
/-- T-C7. -/
theorem test_00EE_underflows :
    let t := after 0x00EE State.reset
    t.faultCause.code = 3 ∧ t.SP = 0 ∧ t.pc = 0x202 ∧ t.runState = .quit := by decide
/-- T-C2. -/
theorem test_1NNN_jumps : (after 0x1234 State.reset).pc = 0x234 := by decide
/-- T-C3. -/
theorem test_2NNN_pushes :
    let t := after 0x2208 State.reset
    t.stack[0] = 0x202 ∧ t.SP = 1 ∧ t.pc = 0x208 := by decide
/-- T-C8. -/
theorem test_2NNN_overflows :
    let t := after 0x2300 { State.reset with SP := 12 }
    t.faultCause.code = 2 ∧ t.SP = 12 ∧ t.pc = 0x202 ∧ t.runState = .quit := by decide
/-- T-C6. -/
theorem test_BNNN_exceeds_memory : (after 0xBFFF (regs [(0, 0xFF)])).pc = 0x10FE := by decide
/-- T-S1. -/
theorem test_3XNN_skips : (after 0x3312 (regs [(3, 0x12)])).pc = 0x204 := by decide
/-- T-S2. -/
theorem test_3XNN_goes_on : (after 0x3313 (regs [(3, 0x12)])).pc = 0x202 := by decide
/-- T-S4. -/
theorem test_4XNN_skips : (after 0x4313 (regs [(3, 0x12)])).pc = 0x204 := by decide
/-- T-S3. -/
theorem test_4XNN_goes_on : (after 0x4312 (regs [(3, 0x12)])).pc = 0x202 := by decide
/-- T-S5. -/
theorem test_5XY0_skips : (after 0x5120 (regs [(1, 7), (2, 7)])).pc = 0x204 := by decide
/-- T-S6. -/
theorem test_5XY0_goes_on : (after 0x5120 (regs [(1, 7), (2, 8)])).pc = 0x202 := by decide
/-- T-S8. -/
theorem test_9XY0_skips : (after 0x9120 (regs [(1, 7), (2, 8)])).pc = 0x204 := by decide
/-- T-S9. -/
theorem test_9XY0_goes_on : (after 0x9110 (regs [(1, 7)])).pc = 0x202 := by decide
/-- T-S10. -/
theorem test_EX9E_skips : (after 0xE59E (regs [(5, 0x0A)]) 0x0400).pc = 0x204 := by decide
/-- T-S14. -/
theorem test_EX9E_faults :
    let t := after 0xE59E (regs [(5, 0x10)])
    t.faultCause.code = 5 ∧ t.pc = 0x202 ∧ t.runState = .quit := by decide
/-- T-S12. -/
theorem test_EXA1_skips : (after 0xE5A1 (regs [(5, 0x0A)])).pc = 0x204 := by decide
/-- T-S13. -/
theorem test_EXA1_goes_on : (after 0xE5A1 (regs [(5, 0x0A)]) 0x0400).pc = 0x202 := by decide
/-- T-A4. -/
theorem test_6XNN_loads : (after 0x6A5C State.reset).readV 0xA = 0x5C := by decide
/-- T-A6. -/
theorem test_7XNN_wraps_without_carry :
    let t := after 0x7002 (regs [(0, 0xFF)])
    t.readV 0 = 0x01 ∧ t.readV 0xF = 0x00 := by decide
/-- T-A9. -/
theorem test_8XY0_copies : (after 0x8010 (regs [(1, 0x42)])).readV 0 = 0x42 := by decide
/-- T-A10, both variants. -/
theorem test_8XY1_or :
    let s := regs [(0, 0x0F), (1, 0xF0), (0xF, 1)]
    (after 0x8011 s).readV 0 = 0xFF ∧ (after 0x8011 s).readV 0xF = 0 ∧ (after 0x8011 (schip s)).readV 0xF = 1 := by decide
/-- T-A14: the result in VF is overwritten on CHIP8 only. -/
theorem test_8XY1_into_VF :
    let s := regs [(0xF, 0x0F), (1, 0xF0)]
    (after 0x8F11 s).readV 0xF = 0x00 ∧ (after 0x8F11 (schip s)).readV 0xF = 0xFF := by decide
/-- T-A11, both variants. -/
theorem test_8XY2_and :
    let s := regs [(0, 0x3C), (1, 0x0F), (0xF, 1)]
    (after 0x8012 s).readV 0 = 0x0C ∧ (after 0x8012 s).readV 0xF = 0 ∧ (after 0x8012 (schip s)).readV 0xF = 1 := by decide
/-- T-A13, both variants. -/
theorem test_8XY3_xor :
    let s := regs [(0, 0xAB), (0xF, 1)]
    (after 0x8003 s).readV 0 = 0x00 ∧ (after 0x8003 s).readV 0xF = 0 ∧ (after 0x8003 (schip s)).readV 0xF = 1 := by decide
/-- T-A16. -/
theorem test_8XY4_carries :
    let t := after 0x8014 (regs [(0, 0xFF), (1, 0x02)])
    t.readV 0 = 0x01 ∧ t.readV 0xF = 1 := by decide
/-- T-A18. -/
theorem test_8XY4_into_VF : (after 0x8F14 (regs [(0xF, 0x80), (1, 0x80)])).readV 0xF = 0x01 := by decide
/-- T-A23. -/
theorem test_8XY5_into_VF : (after 0x8F15 (regs [(0xF, 0x05), (1, 0x03)])).readV 0xF = 0xFE := by decide
/-- T-A24. -/
theorem test_8XY5_of_VF :
    let t := after 0x80F5 (regs [(0, 0x05), (0xF, 0x03)])
    t.readV 0 = 0x04 ∧ t.readV 0xF = 1 := by decide
/-- T-A31, both variants. -/
theorem test_8XY6_source :
    let s := regs [(0, 0x05), (1, 0x80)]
    (after 0x8016 s).readV 0 = 0x40 ∧ (after 0x8016 s).readV 0xF = 0 ∧ (after 0x8016 (schip s)).readV 0 = 0x02 ∧
      (after 0x8016 (schip s)).readV 0xF = 1 := by decide
/-- T-A34, both variants. -/
theorem test_8XY6_of_VF :
    let s := regs [(0, 0x00), (0xF, 0x03)]
    (after 0x80F6 s).readV 0 = 0x01 ∧ (after 0x80F6 s).readV 0xF = 1 ∧ (after 0x80F6 (schip s)).readV 0xF = 0 := by decide
/-- T-A27. -/
theorem test_8XY7_borrows :
    let t := after 0x8017 (regs [(0, 0x05), (1, 0x03)])
    t.readV 0 = 0xFE ∧ t.readV 0xF = 0 := by decide
/-- T-A29. -/
theorem test_8XY7_of_VF :
    let t := after 0x80F7 (regs [(0, 0x05), (0xF, 0x03)])
    t.readV 0 = 0xFB ∧ t.readV 0xF = 0 := by decide
/-- T-A35, both variants. -/
theorem test_8XYE_source :
    let s := regs [(4, 0x81), (0, 0x01)]
    (after 0x840E s).readV 4 = 0x02 ∧ (after 0x840E s).readV 0xF = 0 ∧ (after 0x840E (schip s)).readV 0xF = 1 := by decide
/-- T-A37, both variants. -/
theorem test_8XYE_into_VF :
    let s := regs [(0xF, 0x01), (1, 0x80)]
    (after 0x8F1E s).readV 0xF = 1 ∧ (after 0x8F1E (schip s)).readV 0xF = 0 := by decide
/-- T-A38. -/
theorem test_CXNN_masks : (after 0xC30F State.reset 0 0xA7).readV 3 = 0x07 := by decide
/-- T-M1. -/
theorem test_ANNN_loads : (after 0xA300 State.reset).I = 0x300 := by decide
/-- T-M2. -/
theorem test_FX1E_passes_top :
    let t := after 0xF21E ((regs [(2, 0x01)]).setI 0x0FFF)
    t.I = 0x1000 ∧ t.readV 0xF = 0 := by decide
/-- T-M3. -/
theorem test_FX1E_wraps : (after 0xF01E ((regs [(0, 0x01)]).setI 0xFFFF)).I = 0x0000 := by decide
/-- T-M6. -/
theorem test_FX29_is_not_masked : (after 0xF029 (regs [(0, 0xFF)])).I = 0x4FB := by decide
/-- T-M8. -/
theorem test_FX33_digits :
    let t := after 0xF033 ((regs [(0, 0xFF)]).setI 0x300)
    t.mem.read 0x300 = 2 ∧ t.mem.read 0x301 = 5 ∧ t.mem.read 0x302 = 5 ∧ t.I = 0x300 := by decide
/-- T-M11. -/
theorem test_FX33_faults :
    let t := after 0xF033 ((regs [(0, 0x09)]).setI 0xFFE)
    t.faultCause.code = 4 ∧ t.mem.read 0xFFE = 0 ∧ t.mem.read 0xFFF = 0 ∧ t.pc = 0x202 ∧ t.runState = .quit := by decide
/-- T-M12, both variants. -/
theorem test_FX55_stores :
    let s := (regs [(0, 1), (1, 2), (2, 3)]).setI 0x300
    (after 0xF255 s).mem.read 0x300 = 1 ∧ (after 0xF255 s).mem.read 0x302 = 3 ∧ (after 0xF255 s).I = 0x303 ∧
      (after 0xF255 (schip s)).I = 0x300 := by decide
/-- T-M15. -/
theorem test_FX55_faults :
    let t := after 0xFF55 (State.reset.setI 0xFF1)
    t.faultCause.code = 4 ∧ t.I = 0xFF1 ∧ t.runState = .quit := by decide
/-- T-M16, both variants. -/
theorem test_FX65_loads :
    let s := poke [(0x300, 1), (0x301, 2), (0x302, 3)] ((regs [(3, 0x77)]).setI 0x300)
    (after 0xF265 s).readV 0 = 1 ∧ (after 0xF265 s).readV 2 = 3 ∧ (after 0xF265 s).readV 3 = 0x77 ∧
      (after 0xF265 s).I = 0x303 ∧ (after 0xF265 (schip s)).I = 0x300 := by decide
/-- T-M18. -/
theorem test_FX65_faults :
    let t := after 0xF065 ((regs [(0, 0x11)]).setI 0x1000)
    t.faultCause.code = 4 ∧ t.readV 0 = 0x11 ∧ t.runState = .quit := by decide
/-- T-K1. -/
theorem test_FX07_reads : (after 0xF307 (State.reset.setDT 0x3C)).readV 3 = 0x3C := by decide
/-- T-K2. -/
theorem test_FX15_writes : (after 0xF015 (regs [(0, 0x3C)])).DT = 0x3C := by decide
/-- T-K4. -/
theorem test_FX18_writes :
    let t := after 0xF118 (regs [(1, 0x05)])
    t.ST = 0x05 ∧ t.shouldPlaySound = false := by decide
/-- T-K6. -/
theorem test_FX0A_latches_the_smallest :
    let t := after 0xF30A State.reset 0x0208
    t.pc = 0x200 ∧ t.kwActive = true ∧ t.kwKey = 3 ∧ t.readV 3 = 0 := by decide
/-- T-K8. -/
theorem test_FX0A_completes :
    let t := after 0xFF0A { State.reset with kwActive := true, kwKey := 2 }
    t.readV 0xF = 0x02 ∧ t.kwActive = false ∧ t.kwKey = 2 ∧ t.pc = 0x202 := by decide
/-- T-E9. -/
theorem test_nop_of_family_8 :
    let t := after 0x8018 (regs [(0, 1), (1, 2)])
    t.readV 0 = 1 ∧ t.readV 0xF = 0 ∧ t.pc = 0x202 ∧ t.drawNeeded = false := by decide
/-- T-E11. -/
theorem test_nop_of_family_E : (after 0xE09F State.reset 0x0001).pc = 0x202 := by decide

/-! ## The fetch, the tick, the run state, the load -/

/-- The state after serving one request. -/
def served (r : Request) (s : State) : State :=
  match step { s with inbox := [r] } with
  | .next t => t
  | .fault _ => s
  | .refused _ => s

/-- T-F1. -/
theorem test_pc_check_faults :
    let t := served (.step 0 0) { State.reset with pc := 0xFFE }
    t.pc = 0x1000 ∧ t.faultCause.code = 1 ∧ t.runState = .quit := by decide
/-- T-F2: the last address that executes. -/
theorem test_last_address_executes :
    let t := served (.step 0 0) (poke [(0xFFD, 0x60), (0xFFE, 0x42)] { State.reset with pc := 0xFFD })
    t.readV 0 = 0x42 ∧ t.pc = 0xFFF ∧ t.faultCause = .none := by decide
/-- T-T1. -/
theorem test_tick_counts_down :
    let t := served .tick { State.reset with DT := 2, ST := 2 }
    t.DT = 1 ∧ t.ST = 1 ∧ t.shouldPlaySound = true := by decide
/-- T-T4. -/
theorem test_tick_of_one_is_silent :
    let t := served .tick { State.reset with ST := 1 }
    t.ST = 0 ∧ t.DT = 0 ∧ t.shouldPlaySound = false := by decide
/-- T-T6. -/
theorem test_tick_in_quit :
    let t := served .tick { State.reset with DT := 5, ST := 5, runState := .quit }
    t.DT = 5 ∧ t.ST = 5 ∧ t.shouldPlaySound = false := by decide
/-- T-T7. -/
theorem test_step_in_paused :
    let t := served (.step 0xFFFF 0xFF) { State.reset with runState := .paused, stepDrew := true }
    t.stepDrew = false ∧ t.pc = 0x200 ∧ t.key = 0 := by decide
/-- T-F5: Quit is final. -/
theorem test_quit_is_final :
    step { State.reset with inbox := [.hostRunState .running], runState := .quit } = .refused .quitIsFinal := rfl
/-- R259, D18: a restore does not leave Quit. -/
theorem test_quit_is_final_for_a_restore (p : Snapshot) (hp : p.admissible = true) (hr : p.runState = .running) :
    step { State.reset with inbox := [.hostSnapshotWrite p], runState := .quit } = .refused .quitIsFinal := by
  simp [step, cycle, serve, State.restore, State.quitForbids, State.setInbox, hp, hr]
/-- T-R1. -/
theorem test_load :
    let t := served (.hostLoad [0x12, 0x00]) (regs [(4, 9)])
    t.pc = 0x200 ∧ t.mem.read 0x200 = 0x12 ∧ t.mem.read 0x201 = 0x00 ∧ t.mem.read 0x000 = 0xF0 ∧ t.mem.read 0x04B = 0xF0 ∧
      t.mem.read 0x04F = 0x80 ∧ t.mem.read 0x050 = 0 ∧ t.readV 4 = 0 := by decide +kernel

/-! ## Witnesses: states and operands that meet the hypotheses of each obligation, clause by clause -/

/-- Running, a word at pc, one step request with these inputs queued, and something behind it. -/
def ready (w : Nat) (key : Word := 0) (rnd : Byte := 0) (s : State := State.reset) : State :=
  { s.withFetchWord 16 w with inbox := [.step key rnd, .tick] }

theorem witness_DecodeInvertsEncode : (Instr.nop 0x00FE).wellFormed = true ∧ (Instr.opDXYN 0xF 0xF 0xF).wellFormed = true := by
  decide
theorem witness_NoOpSpaceHasItsWordsAndCounts : inNoOpSpace 0x8018 = true ∧ inNoOpSpace 0x800E = false := by decide
theorem witness_StepRequestFetchesAndExecutes :
    (ready 0x6A5C).inbox = [.step 0 0, .tick] ∧ (ready 0x6A5C).runState = .running ∧
    ({ ready 0x6A5C with runState := .paused } : State).runState ≠ .running ∧
    0xFFF < ({ ready 0x6A5C with pc := 0xFFE } : State).pc.toNat + 2 ∧
    ¬ 0xFFF < ({ ready 0x6A5C with pc := 0xFFD } : State).pc.toNat + 2 := by decide
/-- At the last address that executes: bytes 60 42 are 6042. -/
theorem witness_StepRunsTheDecodedInstruction :
    let s := poke [(0xFFD, 0x60), (0xFFE, 0x42)] { State.reset with pc := 0xFFD }
    s.inbox = [] ∧ s.runState = .running ∧ s.pc.toNat ≤ 0xFFD ∧
    decode [s.mem.read s.pc.toNat, s.mem.read (s.pc.toNat + 1)] = .ok (.op6XNN 0 0x42, []) := by decide
theorem witness_PlacedWordRunsNext :
    State.reset.mem.wf = true ∧ ({ State.reset with pc := 0xFFD } : State).pc.toNat ≤ 0xFFD ∧
    ¬ ({ State.reset with pc := 0xFFE } : State).pc.toNat ≤ 0xFFD := by decide
theorem witness_PcCheckGuardsEveryFetch :
    let s := ready 0x6A5C
    s.inbox = [.step 0 0, .tick] ∧ s.runState = .running ∧ 0xFFE ≤ ({ s with pc := 0xFFE } : State).pc.toNat ∧
    ({ s with pc := 0xFFD } : State).pc.toNat ≤ 0xFFD := by decide
theorem witness_FaultEntryIsPrecise :
    (ready 0x00EE).inbox = [.step 0 0, .tick] ∧ (ready 0x00EE).runState = .running ∧
    ∃ t, step (ready 0x00EE) = .next t ∧ t.runState ≠ .running := ⟨by decide, by decide, _, rfl, by decide⟩
theorem witness_FaultTableIsComplete :
    faultOf (.op2NNN 0x300) { State.reset with SP := 12 } = some .stackOverflow ∧
    faultOf (.op2NNN 0x300) { State.reset with SP := 11 } = none ∧
    faultOf (.op00EE 0) State.reset = some .stackUnderflow ∧ faultOf (.op00EE 0) { State.reset with SP := 1 } = none ∧
    faultOf (.opFX33 0) (State.reset.setI 0xFFE) = some .memOutOfBounds ∧ faultOf (.opFX33 0) (State.reset.setI 0xFFD) = none ∧
    faultOf (.opFX55 0xF) (State.reset.setI 0xFF1) = some .memOutOfBounds ∧
    faultOf (.opFX65 0xF) (State.reset.setI 0xFF0) = none ∧
    faultOf (.opDXYN 0 0 1) (State.reset.setI 0x1000) = some .memOutOfBounds ∧
    faultOf (.opDXYN 0 0 1) (State.reset.setI 0xFFF) = none ∧ faultOf (.opDXYN 0 0 0) (State.reset.setI 0xFFFF) = none ∧
    faultOf (.opEX9E 5) (regs [(5, 0x10)]) = some .keyIndexOutOfRange ∧ faultOf (.opEXA1 5) (regs [(5, 0x0F)]) = none := by
  decide
theorem witness_StepStopsOnlyOnRejectedRequests :
    (List.replicate 3585 (0 : Byte)).length > 3584 ∧ ({ State.reset.save with SP := 13 } : Snapshot).admissible = false ∧
    RunState.running ≠ RunState.quit ∧ State.reset.save.admissible = true ∧ State.reset.save.runState ≠ .quit := by
  refine ⟨by rw [List.length_replicate]; decide, ?_, by decide, ?_, by decide⟩
  · simp [Snapshot.admissible]
  · rw [admissible_iff]; exact ⟨by decide, by decide, by simp [State.save], by decide⟩
theorem witness_QuitIsFinal :
    let s : State := { State.reset with runState := .quit, faultCause := .pcOutOfBounds }
    (s.runState = .quit ∧ (∃ t, step s = .next t) ∧ (∀ rom rest, s.inbox ≠ .hostLoad rom :: rest) ∧
      ∀ p rest, s.inbox ≠ .hostSnapshotWrite p :: rest) ∧
    s.quitForbids s.save = false ∧ s.quitForbids { s.save with faultCause := .none } = true :=
  ⟨⟨rfl, ⟨_, rfl⟩, by simp [State.reset], by simp [State.reset]⟩, by decide, by decide⟩
/-- Both sides of the bounds condition, no row at all, a collision and none. -/
theorem witness_DrawSpriteXorsAndDetectsCollision :
    let rows (n : Nibble) (s : State) := min n.toNat (32 - (s.readV 1).toNat % 32)
    (0 < rows 1 (State.reset.setI 0x1000) ∧ 0xFFF < (State.reset.setI 0x1000).I.toNat + (rows 1 (State.reset.setI 0x1000) - 1)) ∧
    (State.reset.setI 0xFFF).I.toNat + (rows 1 (State.reset.setI 0xFFF) - 1) ≤ 0xFFF ∧ rows 0 State.reset = 0 ∧
    SpriteCollides 0 1 5 { State.reset with disp := State.reset.disp.flip 0 0 } ∧ ¬ SpriteCollides 0 1 5 State.reset := by
  refine ⟨by decide, by decide, by decide, ⟨0, 0, by decide, by decide⟩, ?_⟩
  rintro ⟨x, y, -, h⟩
  exact absurd h (by rw [show State.reset.disp = Display.blank from rfl, Display.pixel_blank]; decide)
theorem witness_DrawingTwiceRestoresTheDisplay :
    State.reset.visibleRows 1 0 = 0 ∧ (State.reset.setI 0xFFF).I.toNat + (State.reset.setI 0xFFF).visibleRows 1 1 ≤ 0x1000 ∧
    ∃ t, exec (.opDXYN 0 1 5) (regs [(0, 5)]) = .next t ∧ ∃ s' : State, s'.disp = t.disp ∧
      s'.readV 0 = (regs [(0, 5)]).readV 0 ∧ s'.readV 1 = (regs [(0, 5)]).readV 1 ∧ s'.I = (regs [(0, 5)]).I ∧
      ∀ r, r < (regs [(0, 5)]).visibleRows 1 5 → s'.mem.read ((regs [(0, 5)]).I.toNat + r) =
        (regs [(0, 5)]).mem.read ((regs [(0, 5)]).I.toNat + r) :=
  ⟨by decide, by decide, _, rfl, { regs [(0, 5)] with disp := _ }, rfl, rfl, rfl, rfl, fun _ _ => rfl⟩
theorem witness_ReturnPopsTheStack :
    State.reset.SP.val = 0 ∧ 0 < ({ State.reset with SP := 1 } : State).SP.val ∧
    0 < ({ State.reset with SP := 12 } : State).SP.val := by decide
theorem witness_CallPushesTheReturnAddress :
    ({ State.reset with SP := 12 } : State).SP.val = 12 ∧ ({ State.reset with SP := 11 } : State).SP.val < 12 ∧
    State.reset.SP.val < 12 := by decide
theorem witness_NestedCallsReturnInOrder :
    let targets : List Addr12 := List.replicate 12 0x300
    targets ≠ [] ∧ State.reset.SP.val + targets.length ≤ 12 ∧ (List.replicate 12 (0 : Nibble)).length = targets.length ∧
    State.reset.SP.val + targets.length = 12 := by decide
theorem witness_SkipsCompareTwoRegisters :
    fieldHi 0x5121 = 5 ∧ fieldN 0x5121 ≠ 0 ∧ fieldHi 0x912F = 9 ∧ fieldN 0x912F ≠ 0 := by decide
theorem witness_skip_conditions :
    (regs [(3, 0x12)]).readV 3 = 0x12 ∧ ¬ State.reset.readV 3 = 0x12 ∧ (regs [(1, 7), (2, 7)]).readV 1 =
    (regs [(1, 7), (2, 7)]).readV 2 ∧ ¬ (regs [(1, 7)]).readV 1 = (regs [(1, 7)]).readV 2 := by decide
theorem witness_SkipsTestTheKeypad :
    15 < ((regs [(5, 0x10)]).readV 5).toNat ∧ ((regs [(5, 0x0F)]).readV 5).toNat ≤ 15 := by decide
/-- The clauses of the ALU statements: each variant, X and Y equal to F and not. -/
theorem witness_alu_clauses :
    State.reset.cfg.variant = .chip8 ∧ (schip State.reset).cfg.variant = .schip ∧ (0 : Nibble) ≠ 0xF ∧
    (0xF : Nibble) = 0xF ∧ (0xE : Nibble) ≠ 0xF := by decide
theorem witness_RandomByteIsMasked :
    (ready 0xC30F 0 0xA7).inbox = [.step 0 0xA7, .tick] ∧ (ready 0xC30F 0 0xA7).runState = .running ∧
    (ready 0xC30F 0 0xA7).pc.toNat ≤ 0xFFD ∧ decodeWord (ready 0xC30F 0 0xA7).fetchWord = .opCXNN 3 0x0F := by decide
theorem witness_BcdStoresThreeDigits :
    0xFFD < (State.reset.setI 0xFFE).I.toNat ∧ (State.reset.setI 0xFFD).I.toNat ≤ 0xFFD ∧
    (State.reset.setI 0xFFD).mem.wf = true := by decide
theorem witness_StoreRegistersFromI :
    0xFFF < (State.reset.setI 0xFF1).I.toNat + (0xF : Nibble).toNat ∧
    (State.reset.setI 0xFF0).I.toNat + (0xF : Nibble).toNat ≤ 0xFFF ∧ (State.reset.setI 0xFF0).mem.wf = true ∧
    15 ≤ (0xF : Nibble).toNat := by decide
theorem witness_LoadRegistersFromI :
    0xFFF < (State.reset.setI 0x1000).I.toNat + (0 : Nibble).toNat ∧
    (State.reset.setI 0xFFF).I.toNat + (0 : Nibble).toNat ≤ 0xFFF ∧ (0 : Nibble).toNat < (1 : Nibble).toNat := by decide
theorem witness_StoredCodeIsFetchedNext :
    (State.reset.setI 0xFFE).mem.wf = true ∧ (State.reset.setI 0xFFE).I.toNat + (1 : Nibble).toNat ≤ 0xFFF ∧
    0 + 1 ≤ (1 : Nibble).toNat := by decide
/-- No key; keys 3 and 9 (3 the smallest); the latched key held; the latched key released. -/
theorem witness_KeyWaitLatchesThenReleases :
    let latched : State := { State.reset with kwActive := true, kwKey := 0xF }
    (State.reset.kwActive = false ∧ ∀ k < 16, State.reset.key.getLsbD k = false) ∧
    ((State.reset.withKey 0x0208).key.getLsbD 3 = true ∧ ∀ j < 3, (State.reset.withKey 0x0208).key.getLsbD j = false) ∧
    (latched.withKey 0x8000).key.getLsbD (latched.withKey 0x8000).kwKey.toNat = true ∧
    latched.key.getLsbD latched.kwKey.toNat = false := by decide
theorem witness_KeyWaitHangsWithoutInput :
    let inputs : List (Word × Byte) := [(0, 1), (0, 2)]
    let pressed : List (Word × Byte) := [(0x8000, 1), (0x8001, 2)]
    let s : State := { State.reset.withFetchWord 16 0xF30A with inbox := inputs.map fun p => .step p.1 p.2 }
    let held : State := { s with inbox := pressed.map fun p => .step p.1 p.2, kwActive := true, kwKey := 0xF }
    s.runState = .running ∧ s.pc.toNat ≤ 0xFFD ∧ decodeWord s.fetchWord = .opFX0A 3 ∧
    (s.kwActive = false ∧ ∀ p ∈ inputs, p.1 = 0) ∧
    decodeWord held.fetchWord = .opFX0A 3 ∧ held.kwActive = true ∧ ∀ p ∈ pressed, p.1.getLsbD held.kwKey.toNat = true :=
  ⟨by decide, by decide, by decide, ⟨by decide, by simp⟩, by decide, by decide, by simp⟩
theorem witness_KeyWaitCompletesAfterRelease :
    let s : State := { State.reset.withFetchWord 16 0xF30A with
      inbox := [.step (BitVec.twoPow 16 (0xF : Nibble).toNat) 1, .tick, .step 0 2] }
    s.runState = .running ∧ s.kwActive = false ∧ s.pc.toNat ≤ 0xFFD ∧ decodeWord s.fetchWord = .opFX0A 3 := by decide
theorem witness_NoOpChangesNothing :
    (ready 0x5121).inbox = [.step 0 0, .tick] ∧ (ready 0x5121).runState = .running ∧ (ready 0x5121).pc.toNat ≤ 0xFFD ∧
    decodeWord (ready 0x5121).fetchWord = .nop 0x5121 := by decide
theorem witness_InstructionsStayInTheirFootprint :
    faultOf (.opFX55 0xF) (State.reset.setI 0xFF0) = none ∧ faultOf (.op8XY4 0 1) State.reset = none := by decide
theorem witness_VariantMattersOnlyAtItsQuirks : variantDependent (.op7XNN 0 1) = false := by decide
theorem witness_InputsReachOnlyTheirReaders : readsKeypad (.opFX07 0) = false ∧ readsRandom (.opEX9E 0) = false := by decide
theorem witness_TickCountsDown :
    let s : State := { State.reset with inbox := [.tick, .tick] }
    s.inbox = .tick :: [.tick] ∧ s.runState ≠ .quit ∧ ({ s with runState := .quit } : State).runState = .quit := by decide
theorem witness_StoppedEngineIgnoresSteps :
    let s : State := { State.reset with runState := .paused }
    s.runState ≠ .running ∧ s.inbox = [] ∧ ({ s with inbox := [.step 1 2] } : State).inbox = [.step 1 2] := by decide
theorem witness_HostChangesRunState :
    let s : State := { State.reset with inbox := [.hostRunState .paused] }
    let q : State := { s with runState := .quit, inbox := [.hostRunState .quit] }
    s.inbox = [.hostRunState .paused] ∧ s.runState ≠ .quit ∧ q.runState = .quit ∧ RunState.paused ≠ .quit ∧
    q.inbox = [.hostRunState .quit] := by decide
theorem witness_OnlyTheHostClearsDrawNeeded :
    ({ State.reset with inbox := [.hostClearDraw], drawNeeded := true } : State).inbox = [.hostClearDraw] ∧
    ∃ t, exec (.op1NNN 0x300) { State.reset with drawNeeded := true } = .next t := ⟨by decide, _, rfl⟩
theorem witness_LoadLeavesTheResetState :
    let s : State := { State.reset with inbox := [.hostLoad (List.replicate 3584 1)] }
    s.inbox = [.hostLoad (List.replicate 3584 1)] ∧ (List.replicate 3584 (1 : Byte)).length ≤ 3584 :=
  ⟨rfl, by rw [List.length_replicate]⟩
theorem witness_RestoreReplacesTheWholeState :
    let p := State.reset.save
    (p.SP ≤ 12 ∧ p.kwKey ≤ 15 ∧ p.disp.length = 64 * 32 ∧ p.mem.wf = true) ∧
    ({ p with SP := 12, kwKey := 15 } : Snapshot).SP ≤ 12 ∧ ¬ ({ p with SP := 13 } : Snapshot).SP ≤ 12 ∧
    ¬ ({ p with kwKey := 16 } : Snapshot).kwKey ≤ 15 ∧ State.reset.runState ≠ .quit ∧
    let q : State := { State.reset with runState := .quit, faultCause := .stackOverflow }
    q.runState = .quit ∧ p.runState ≠ .quit ∧ ({ q.save with faultCause := .none } : Snapshot).faultCause ≠ q.faultCause ∧
    q.save.runState = .quit ∧ q.save.faultCause = q.faultCause := by
  refine ⟨⟨by decide, by decide, by simp [State.save], by decide⟩, by decide, by decide, by decide, by decide, by decide⟩
theorem witness_RestoreInvertsSave : State.reset.mem.wf = true := by decide
theorem witness_StepKeepsMemoryCanonical :
    State.reset.mem.wf = true ∧ ∃ t, step (ready 0xF255) = .next t := ⟨by decide, _, rfl⟩
theorem witness_StepKeepsPcInRange :
    let s := ready 0xBFFF
    NoRestoreQueued s ∧ PcInRange s ∧ ∃ t, step s = .next t := by
  refine ⟨by intro p; simp [ready], ⟨by decide, by decide, ?_⟩, _, rfl⟩
  intro w hw
  have : w = 0 := by simpa [ready, State.withFetchWord, State.placeWord, State.reset] using hw
  subst this; decide
theorem witness_StepKeepsFaultsInQuit :
    let s : State := { State.reset with inbox := [.tick], runState := .quit, faultCause := .stackOverflow }
    NoRestoreQueued s ∧ FaultQuits s ∧ s.faultCause ≠ .none ∧ ∃ t, step s = .next t :=
  ⟨by intro p; simp, fun _ => rfl, by decide, _, rfl⟩
theorem witness_StepServesOneRequestOnly :
    (∃ t, step (ready 0x6A5C) = .next t) ∧ (ready 0x6A5C).inbox = [.step 0 0, .tick] ∧ State.reset.inbox = [] :=
  ⟨⟨_, rfl⟩, rfl, rfl⟩

end Sys2Proof.Tests
end

section
/-! PROOFS for 00_scope.md, part 1: every word decodes to a well-formed instruction that encodes to that word
(R19, R75, R88). One lemma per family of the dispatch (R76-R81), then the dispatch on the high nibble. -/

namespace Sys2Proof

/-- `i` is a well-formed instruction whose word is `w`. -/
def Instr.StandsFor (i : Instr) (w : Word) : Prop := i.wellFormed = true ∧ encode i = w

namespace Instr.StandsFor

/-- The no-op stands for its word as soon as R87's table lists the word. -/
theorem nop {w : Word} (h : inNoOpSpace w = true) : (Instr.nop w).StandsFor w := ⟨h, rfl⟩

section
variable {i j : Instr} {w : Word} {hi : Nat} (hhi : (fieldHi w).toNat = hi)
include hhi

/-- An instruction that packs NNN below the high nibble of `w`. -/
theorem of_packNNN (hwf : i.wellFormed = true) (henc : encode i = packNNN (BitVec.ofNat 4 hi) (fieldNNN w)) :
    i.StandsFor w :=
  ⟨hwf, by rw [henc, ← (BitVec.toNat_eq_nat.1 hhi).2, packNNN_fields]⟩

/-- An instruction that packs X and NN below the high nibble of `w`. -/
theorem of_packXNN (hwf : i.wellFormed = true)
    (henc : encode i = packXNN (BitVec.ofNat 4 hi) (fieldX w) (fieldNN w)) : i.StandsFor w :=
  ⟨hwf, by rw [henc, ← (BitVec.toNat_eq_nat.1 hhi).2, packXNN_fields]⟩

/-- An instruction that packs X, Y and N below the high nibble of `w`. -/
theorem of_packXYN (hwf : i.wellFormed = true)
    (henc : encode i = packXYN (BitVec.ofNat 4 hi) (fieldX w) (fieldY w) (fieldN w)) : i.StandsFor w :=
  ⟨hwf, by rw [henc, ← (BitVec.toNat_eq_nat.1 hhi).2, packXYN_fields]⟩

/-- One test of a family keyed on NN (R76, R80, R81). -/
theorem ite_fieldNN {nn : Byte} (hwf : i.wellFormed = true)
    (henc : encode i = packXNN (BitVec.ofNat 4 hi) (fieldX w) nn) (helse : fieldNN w ≠ nn → j.StandsFor w) :
    (if fieldNN w = nn then i else j).StandsFor w := by
  split
  · next hnn => exact of_packXNN hhi hwf (by rw [hnn, henc])
  · next hnn => exact helse hnn

/-- The one test of a family keyed on N = 0 (R77, R79). -/
theorem ite_fieldN (hwf : i.wellFormed = true)
    (henc : encode i = packXYN (BitVec.ofNat 4 hi) (fieldX w) (fieldY w) 0) (helse : fieldN w ≠ 0 → j.StandsFor w) :
    (if fieldN w = 0 then i else j).StandsFor w := by
  split
  · next hn => exact of_packXYN hhi hwf (by rw [hn, henc])
  · next hn => exact helse hn

end

end Instr.StandsFor

open Instr.StandsFor

/-! ### The families of R75 -/

section
variable {w : Word}

theorem dispatch0_standsFor (h : (fieldHi w).toNat = 0x0) : (dispatch0 w).StandsFor w :=
  ite_fieldNN h rfl rfl fun hE0 => ite_fieldNN h rfl rfl fun hEE =>
    nop (by simpa [inNoOpSpace_eq, h] using ⟨hE0, hEE⟩)

theorem family5_standsFor (h : (fieldHi w).toNat = 0x5) :
    (if fieldN w = 0 then .op5XY0 (fieldX w) (fieldY w) else .nop w : Instr).StandsFor w :=
  ite_fieldN h rfl rfl fun hn => nop (by simpa [inNoOpSpace_eq, h] using hn)

theorem family9_standsFor (h : (fieldHi w).toNat = 0x9) :
    (if fieldN w = 0 then .op9XY0 (fieldX w) (fieldY w) else .nop w : Instr).StandsFor w :=
  ite_fieldN h rfl rfl fun hn => nop (by simpa [inNoOpSpace_eq, h] using hn)

/-- The values of N that no row of family 0x8 has are the seven of R87. -/
theorem family8_nop_mem : ∀ n : Nibble,
    (n.toNat ≠ 0x0 ∧ n.toNat ≠ 0x1 ∧ n.toNat ≠ 0x2 ∧ n.toNat ≠ 0x3 ∧ n.toNat ≠ 0x4 ∧ n.toNat ≠ 0x5 ∧ n.toNat ≠ 0x6 ∧
      n.toNat ≠ 0x7 ∧ n.toNat ≠ 0xE) →
    ([0x8, 0x9, 0xA, 0xB, 0xC, 0xD, 0xF] : List Nibble).contains n = true := by decide

theorem dispatch8_standsFor (h : (fieldHi w).toNat = 0x8) : (dispatch8 w).StandsFor w := by
  unfold dispatch8
  split
  case h_10 h0 h1 h2 h3 h4 h5 h6 h7 hE =>
    have hn := family8_nop_mem (fieldN w) ⟨h0, h1, h2, h3, h4, h5, h6, h7, hE⟩
    exact nop (by rw [inNoOpSpace_eq, h]; exact hn)
  all_goals next hn => exact of_packXYN h rfl (by rw [(BitVec.toNat_eq_nat.1 hn).2]; rfl)

theorem dispatchE_standsFor (h : (fieldHi w).toNat = 0xE) : (dispatchE w).StandsFor w :=
  ite_fieldNN h rfl rfl fun h9E => ite_fieldNN h rfl rfl fun hA1 =>
    nop (by simpa [inNoOpSpace_eq, h] using ⟨h9E, hA1⟩)

theorem dispatchF_standsFor (h : (fieldHi w).toNat = 0xF) : (dispatchF w).StandsFor w :=
  ite_fieldNN h rfl rfl fun h07 => ite_fieldNN h rfl rfl fun h0A => ite_fieldNN h rfl rfl fun h15 =>
  ite_fieldNN h rfl rfl fun h18 => ite_fieldNN h rfl rfl fun h1E => ite_fieldNN h rfl rfl fun h29 =>
  ite_fieldNN h rfl rfl fun h33 => ite_fieldNN h rfl rfl fun h55 => ite_fieldNN h rfl rfl fun h65 =>
    nop (by simpa [inNoOpSpace_eq, h] using ⟨h07, h0A, h15, h18, h1E, h29, h33, h55, h65⟩)

end

/-- What a word decodes to stands for that word: one case per high nibble. -/
theorem decodeWord_standsFor (w : Word) : (decodeWord w).StandsFor w := by
  unfold decodeWord
  split
  · next h => exact dispatch0_standsFor h
  · next h => exact of_packNNN h rfl rfl
  · next h => exact of_packNNN h rfl rfl
  · next h => exact of_packXNN h rfl rfl
  · next h => exact of_packXNN h rfl rfl
  · next h => exact family5_standsFor h
  · next h => exact of_packXNN h rfl rfl
  · next h => exact of_packXNN h rfl rfl
  · next h => exact dispatch8_standsFor h
  · next h => exact family9_standsFor h
  · next h => exact of_packNNN h rfl rfl
  · next h => exact of_packNNN h rfl rfl
  · next h => exact of_packXNN h rfl rfl
  · next h => exact of_packXYN h rfl rfl
  · next h => exact dispatchE_standsFor h
  · have hlt := (fieldHi w).isLt
    have hF : (fieldHi w).toNat = 0xF := by
      simp only [imp_false] at *
      omega
    exact dispatchF_standsFor hF

/-- Settles O2: the dispatch is faithful, family by family. -/
theorem encodeInvertsDecode : Obligations.EncodeInvertsDecode := decodeWord_standsFor

end Sys2Proof
end

section
/-! PROOFS for 00_scope.md, part 2: what an instruction does to a state whose configuration, keypad vector or random byte
is another one (R2, R35, R41, R171). The three are replaced together, by any functions, so that one case split over the
instructions serves the variant, the keypad and the random byte alike. -/

namespace Sys2Proof.Machine

/-- The same state with another configuration and other sampled inputs. -/
def State.mapPorts (g : Config → Config) (κ : Word → Word) (ρ : Byte → Byte) (s : State) : State :=
  { s with cfg := g s.cfg, key := κ s.key, rnd := ρ s.rnd }

theorem State.withVariant_eq_mapPorts (v : Variant) :
    State.withVariant v = State.mapPorts (fun c => { c with variant := v }) id id := rfl

section
variable (g : Config → Config) (κ : Word → Word) (ρ : Byte → Byte) (s : State)

@[simp] theorem State.mapPorts_pc : (s.mapPorts g κ ρ).pc = s.pc := rfl
@[simp] theorem State.mapPorts_kwActive : (s.mapPorts g κ ρ).kwActive = s.kwActive := rfl
@[simp] theorem State.mapPorts_cfg : (s.mapPorts g κ ρ).cfg = g s.cfg := rfl
@[simp] theorem State.mapPorts_key : (s.mapPorts g κ ρ).key = κ s.key := rfl

/-! ### The operations that branch on no port -/

/-- A guarded effect commutes with the map when its effect does. -/
theorem raiseIf_mapPorts (bad : Bool) (c : FaultCause) {t e : State} (he : t = e.mapPorts g κ ρ) :
    raiseIf bad c (s.mapPorts g κ ρ) t = mapNext (State.mapPorts g κ ρ) (raiseIf bad c s e) := by
  subst he
  cases bad <;> rfl

namespace State

theorem skipIf_mapPorts (c : Bool) : (s.mapPorts g κ ρ).skipIf c = (s.skipIf c).mapPorts g κ ρ := by cases c <;> rfl

theorem push_mapPorts (w : Word) : (s.mapPorts g κ ρ).push w = (s.push w).map (mapPorts g κ ρ) := by
  by_cases h : s.SP.val < 12
  · rw [push_of_lt w h]
    exact push_of_lt w (s := s.mapPorts g κ ρ) h
  · have hfull : s.SP.val = 12 := by omega
    rw [(push_eq_none_iff w s).2 hfull]
    exact (push_eq_none_iff w (s.mapPorts g κ ρ)).2 hfull

theorem pop_mapPorts : (s.mapPorts g κ ρ).pop = s.pop.map (Prod.map id (mapPorts g κ ρ)) := by
  by_cases h : 0 < s.SP.val
  · rw [pop_of_pos h]
    exact pop_of_pos (s := s.mapPorts g κ ρ) h
  · have hempty : s.SP.val = 0 := by omega
    rw [(pop_eq_none_iff s).2 hempty]
    exact (pop_eq_none_iff (s.mapPorts g κ ρ)).2 hempty

/-! ### The operations that branch on the variant, under a map that keeps the configuration -/

theorem resetFlagQuirk_mapPorts : (s.mapPorts id κ ρ).resetFlagQuirk = s.resetFlagQuirk.mapPorts id κ ρ := by
  rw [resetFlagQuirk, resetFlagQuirk, mapPorts_cfg, id]
  cases s.cfg.variant <;> rfl

theorem bumpI_mapPorts (x : Nibble) : (s.mapPorts id κ ρ).bumpI x = (s.bumpI x).mapPorts id κ ρ := by
  rw [bumpI, bumpI, mapPorts_cfg, id]
  cases s.cfg.variant <;> rfl

/-! ### The operations that branch on the keypad, under a map that keeps it -/

theorem seekKey_mapPorts : (s.mapPorts g id ρ).seekKey = s.seekKey.mapPorts g id ρ := by
  rw [seekKey, seekKey, mapPorts_key, id]
  cases lowestPressed s.key <;> rfl

theorem latchedKeyHeld_mapPorts : (s.mapPorts g id ρ).latchedKeyHeld = s.latchedKeyHeld := rfl

theorem awaitRelease_mapPorts (x : Nibble) :
    (s.mapPorts g id ρ).awaitRelease x = (s.awaitRelease x).mapPorts g id ρ := by
  rw [awaitRelease, awaitRelease, latchedKeyHeld_mapPorts]
  cases s.latchedKeyHeld <;> rfl

end State

/-! ### The instructions that use them -/

theorem exec00EE_mapPorts (u : Nibble) :
    exec00EE u (s.mapPorts g κ ρ) = mapNext (State.mapPorts g κ ρ) (exec00EE u s) := by
  rw [exec00EE, exec00EE, State.pop_mapPorts]
  cases s.pop <;> rfl

theorem exec2NNN_mapPorts (nnn : Addr12) :
    exec2NNN nnn (s.mapPorts g κ ρ) = mapNext (State.mapPorts g κ ρ) (exec2NNN nnn s) := by
  rw [exec2NNN, exec2NNN, State.push_mapPorts, State.mapPorts_pc]
  cases s.push s.pc <;> rfl

theorem execFX0A_mapPorts (x : Nibble) :
    execFX0A x (s.mapPorts g id ρ) = mapNext (State.mapPorts g id ρ) (execFX0A x s) := by
  rw [execFX0A, execFX0A, State.awaitRelease_mapPorts, State.seekKey_mapPorts, State.mapPorts_kwActive]
  cases s.kwActive <;> rfl

end

/-- An instruction that reads none of the ports that change gives the same outcome, those ports apart. -/
theorem exec_mapPorts {g : Config → Config} {κ : Word → Word} {ρ : Byte → Byte} (i : Instr) (s : State)
    (hg : variantDependent i = true → g = id) (hκ : readsKeypad i = true → κ = id) (hρ : readsRandom i = true → ρ = id) :
    exec i (s.mapPorts g κ ρ) = mapNext (State.mapPorts g κ ρ) (exec i s) := by
  cases i with
  | op00EE u => exact exec00EE_mapPorts g κ ρ s u
  | op2NNN nnn => exact exec2NNN_mapPorts g κ ρ s nnn
  | op3XNN x nn | op4XNN x nn | op5XY0 x y | op9XY0 x y =>
    exact congrArg Host.Outcome.next (State.skipIf_mapPorts g κ ρ s _)
  | op8XY1 x y | op8XY2 x y | op8XY3 x y =>
    obtain rfl := hg rfl
    refine congrArg Host.Outcome.next (Eq.trans ?_ (State.resetFlagQuirk_mapPorts κ ρ _))
    rfl
  | op8XY6 x y | op8XYE x y => obtain rfl := hg rfl; rfl
  | opCXNN x nn => obtain rfl := hρ rfl; rfl
  | opEX9E x | opEXA1 x =>
    obtain rfl := hκ rfl
    exact raiseIf_mapPorts g id ρ s _ _ (State.skipIf_mapPorts g id ρ s _)
  | opFX0A x => obtain rfl := hκ rfl; exact execFX0A_mapPorts g ρ s x
  | opDXYN x y n | opFX33 x => exact raiseIf_mapPorts g κ ρ s _ _ rfl
  | opFX55 x | opFX65 x =>
    obtain rfl := hg rfl
    refine raiseIf_mapPorts id κ ρ s _ _ (Eq.trans ?_ (State.bumpI_mapPorts κ ρ _ x))
    rfl
  | op00E0 | op1NNN | op6XNN | op7XNN | op8XY0 | op8XY4 | op8XY5 | op8XY7 | opANNN | opBNNN | opFX07 | opFX15 | opFX18
    | opFX1E | opFX29 | nop => rfl

/-- Settles O45: of the ports only the variant changes, and an instruction outside the seven does not read it. -/
theorem variantMattersOnlyAtItsQuirks : Obligations.VariantMattersOnlyAtItsQuirks := by
  intro i v s hv
  rw [State.withVariant_eq_mapPorts]
  exact exec_mapPorts i s (by simp [hv]) (fun _ => rfl) (fun _ => rfl)

end Sys2Proof.Machine
end

section
/-! PROOFS for 10_state.md, part 1: what an instruction and a step can do, each said once. An instruction either completes
or raises a fault; a step answers in one of seven ways. Every invariant of a run is read off these two case lists. -/

namespace Sys2Proof.Machine

/-! ### What an instruction can do -/

/-- Where pc can be after an instruction, against the fetch's advance: there, one word on (R18), back at the instruction
itself (FX0A, R233), at a return address (R120), or at a jump's target, BNNN's being the farthest (R123). -/
inductive PcMoves (s t : State) : Prop where
  | stays (h : t.pc = s.pc)
  | skips (h : t.pc = s.pc + 2)
  | rewinds (h : t.pc = s.pc - 2)
  | returns (h : t.pc ∈ s.stack)
  | jumps (h : t.pc.toNat ≤ 0x10FE)

/-- What every instruction that completes leaves alone, how it moves pc, and what its stack can hold (R122). -/
structure Completes (s t : State) : Prop where
  runState : t.runState = s.runState
  faultCause : t.faultCause = s.faultCause
  cfg : t.cfg = s.cfg
  inbox : t.inbox = s.inbox
  pc : PcMoves s t
  stack : ∀ w ∈ t.stack, w ∈ s.stack ∨ w = s.pc

/-- An outcome is a next state in which the instruction has completed, or a fault has been raised (R15, R252). -/
def CompletesOrRaises (s : State) (o : Host.Outcome State Fault Refusal) : Prop :=
  ∃ t, o = .next t ∧ (Completes s t ∨ ∃ c, t = s.raise c)

namespace CompletesOrRaises

variable {s t : State}

theorem raised (c : FaultCause) : CompletesOrRaises s (.next (s.raise c)) := ⟨_, rfl, .inr ⟨c, rfl⟩⟩

theorem completed (h : Completes s t) : CompletesOrRaises s (.next t) := ⟨_, rfl, .inl h⟩

theorem guarded {bad : Bool} {c : FaultCause} (h : Completes s t) : CompletesOrRaises s (raiseIf bad c s t) := by
  cases hb : bad
  · rw [raiseIf_of_ok rfl]; exact completed h
  · rw [raiseIf_of_bad rfl]; exact raised c

end CompletesOrRaises

namespace Completes

variable {s t : State}

/-- An instruction that leaves the stack's entries as they are. -/
theorem of_stack_eq (hr : t.runState = s.runState) (hf : t.faultCause = s.faultCause) (hc : t.cfg = s.cfg)
    (hi : t.inbox = s.inbox) (hs : t.stack = s.stack) (hpc : PcMoves s t) : Completes s t :=
  ⟨hr, hf, hc, hi, hpc, fun _ hw => .inl (hs ▸ hw)⟩

theorem skipIf (c : Bool) : Completes s (s.skipIf c) := by
  refine of_stack_eq (by simp) (by simp) (by simp) (by simp) (by simp) ?_
  cases c
  · exact .stays rfl
  · exact .skips rfl

theorem setPc {v : Word} (h : v.toNat ≤ 0x10FE) : Completes s (s.setPc v) :=
  of_stack_eq rfl rfl rfl rfl rfl (.jumps h)

end Completes

theorem toNat_addrOf_le (nnn : Addr12) : (addrOf nnn).toNat ≤ 0xFFF := by
  have := nnn.isLt
  simp only [addrOf, BitVec.toNat_setWidth]; omega

/-- The jump of BNNN reaches 0x10FE at most (R123). -/
theorem toNat_zext16_add_addrOf_le (v : Byte) (nnn : Addr12) : (zext16 v + addrOf nnn).toNat ≤ 0x10FE := by
  have hv := v.isLt
  have hn := toNat_addrOf_le nnn
  simp only [zext16, BitVec.toNat_add, BitVec.toNat_setWidth]; omega

theorem exec00EE_completesOrRaises (u : Nibble) (s : State) : CompletesOrRaises s (exec00EE u s) := by
  unfold exec00EE
  split
  · exact .raised _
  · next target t hpop =>
    obtain ⟨hs, rfl, rfl⟩ := State.pop_eq_some hpop
    exact .completed (.of_stack_eq rfl rfl rfl rfl rfl (.returns (Vector.getElem_mem _)))

theorem exec2NNN_completesOrRaises (nnn : Addr12) (s : State) : CompletesOrRaises s (exec2NNN nnn s) := by
  unfold exec2NNN
  split
  · exact .raised _
  · next t hpush =>
    obtain ⟨hs, rfl⟩ := State.push_eq_some hpush
    have hpc : (addrOf nnn).toNat ≤ 0x10FE := (toNat_addrOf_le nnn).trans (by decide)
    exact .completed ⟨rfl, rfl, rfl, rfl, .jumps hpc, fun _ hw => Vector.mem_or_eq_of_mem_set (hi := hs) hw⟩

theorem Completes.of_FX0A (x : Nibble) (s : State) : Completes s (if s.kwActive then s.awaitRelease x else s.seekKey) := by
  split
  · unfold State.awaitRelease
    split
    · exact .of_stack_eq rfl rfl rfl rfl rfl (.rewinds rfl)
    · exact .of_stack_eq rfl rfl rfl rfl rfl (.stays rfl)
  · unfold State.seekKey
    split <;> exact .of_stack_eq rfl rfl rfl rfl rfl (.rewinds rfl)

/-- What an instruction can do: complete, or raise a fault. -/
theorem exec_completesOrRaises (i : Instr) (s : State) : CompletesOrRaises s (exec i s) := by
  cases i with
  | op00EE u => exact exec00EE_completesOrRaises u s
  | op2NNN nnn => exact exec2NNN_completesOrRaises nnn s
  | op1NNN nnn => exact .completed (.setPc ((toNat_addrOf_le nnn).trans (by decide)))
  | opBNNN nnn => exact .completed (.setPc (toNat_zext16_add_addrOf_le _ nnn))
  | op3XNN | op4XNN | op5XY0 | op9XY0 => exact .completed (.skipIf _)
  | opEX9E | opEXA1 => exact .guarded (.skipIf _)
  | opFX0A x => exact .completed (.of_FX0A x s)
  | op8XY1 | op8XY2 | op8XY3 =>
    exact .completed (.of_stack_eq (by simp) (by simp) (by simp) (by simp) (by simp) (.stays (by simp)))
  | opFX55 | opFX65 => exact .guarded (.of_stack_eq (by simp) (by simp) (by simp) (by simp) (by simp) (.stays (by simp)))
  | opDXYN | opFX33 => exact .guarded (.of_stack_eq rfl rfl rfl rfl rfl (.stays rfl))
  | op00E0 | op6XNN | op7XNN | op8XY0 | op8XY4 | op8XY5 | op8XY6 | op8XY7 | op8XYE | opANNN | opCXNN | opFX07 | opFX15
    | opFX18 | opFX1E | opFX29 | nop => exact .completed (.of_stack_eq rfl rfl rfl rfl rfl (.stays rfl))

/-- The fetch's two ends: pc stands at the end of the address space and the check raises, or the instruction runs with pc
advanced, without wrapping, and answers as every instruction does (R72-R74). -/
theorem runInstruction_cases {s t : State} (h : runInstruction s = .next t) :
    (0xFFE ≤ s.pc.toNat ∧ t = s.clearStepDrew.advance.raise .pcOutOfBounds) ∨
    (s.pc.toNat < 0xFFE ∧ (Completes s.clearStepDrew.advance t ∨ ∃ c, t = s.clearStepDrew.advance.raise c)) := by
  by_cases hpc : s.pc.toNat < 0xFFE
  · rw [runInstruction_of_ok hpc] at h
    obtain ⟨t', ht', hcases⟩ := exec_completesOrRaises (decodeWord s.fetchWord) s.clearStepDrew.advance
    obtain rfl : t' = t := Host.Outcome.next.inj (ht'.symm.trans h)
    exact .inr ⟨hpc, hcases⟩
  · have hbad : 0xFFE ≤ s.pc.toNat := by omega
    rw [runInstruction_of_bad hbad] at h
    exact .inl ⟨hbad, (Host.Outcome.next.inj h).symm⟩

/-! ### What a step can do -/

/-- The same state without its oldest queued request (log 6). -/
def State.dequeued (s : State) : State := s.setInbox s.inbox.tail

theorem State.dequeued_of_nil {s : State} (h : s.inbox = []) : s.dequeued = s := by
  cases s; simp_all [State.dequeued, State.setInbox]

theorem State.dequeued_of_cons {s : State} {r : Request} {rest : List Request} (h : s.inbox = r :: rest) :
    s.dequeued = s.setInbox rest := by rw [State.dequeued, h, List.tail_cons]

/-- The states a step from `s` can lead to, by what it served (R260, R273, R275; log 6). -/
inductive StepsTo (s : State) : State → Prop where
  | ran {t : State} (key : Word) (rnd : Byte) (draws : Nat) (hrun : s.runState = .running)
      (h : runInstruction { s.dequeued with key := key, rnd := rnd, draws := draws } = .next t) : StepsTo s t
  | stopped (hstop : s.runState ≠ .running) : StepsTo s s.dequeued.clearStepDrew
  | ticked : StepsTo s s.dequeued.tick
  | changedRunState (wanted : RunState) (hquit : s.runState = .quit → wanted = .quit) :
      StepsTo s { s.dequeued with runState := wanted }
  | clearedDraw : StepsTo s s.dequeued.clearDraw
  | loaded (rom : List Byte) (hrom : rom.length ≤ 3584) : StepsTo s (s.dequeued.loaded rom)
  | restored (p : Snapshot) (hmem : .hostSnapshotWrite p ∈ s.inbox) (hp : p.admissible = true)
      (hquit : s.runState = .quit → p.runState = .quit ∧ p.faultCause = s.faultCause) :
      StepsTo s (s.dequeued.replacedBy p)

theorem stepsTo_of_unattendedStep {s t : State} (hin : s.inbox = []) (h : unattendedStep s = .next t) : StepsTo s t := by
  have hs := State.dequeued_of_nil hin
  by_cases hrun : s.runState = .running
  · rw [unattendedStep_running hrun] at h
    exact .ran _ _ _ hrun (by rw [hs]; exact h)
  · rw [unattendedStep_stopped hrun] at h
    cases h
    have := StepsTo.stopped hrun
    rwa [hs] at this

theorem stepsTo_of_stepRequest {s t : State} {key : Word} {rnd : Byte} (h : stepRequest key rnd s.dequeued = .next t) :
    StepsTo s t := by
  by_cases hrun : s.runState = .running
  · rw [stepRequest_running (s := s.dequeued) hrun] at h
    exact .ran key rnd s.draws hrun h
  · rw [stepRequest_stopped (s := s.dequeued) hrun] at h
    cases h
    exact .stopped hrun

/-- What a step can do. -/
theorem step_stepsTo {s t : State} (h : step s = .next t) : StepsTo s t := by
  cases hin : s.inbox with
  | nil => exact stepsTo_of_unattendedStep hin (step_of_nil hin ▸ h)
  | cons r rest =>
    rw [step_of_cons hin, ← State.dequeued_of_cons hin] at h
    cases r with
    | step key rnd => exact stepsTo_of_stepRequest h
    | tick => cases h; exact .ticked
    | hostRunState wanted =>
      obtain ⟨rfl, hquit⟩ := changeRunState_next h
      exact .changedRunState wanted hquit
    | hostClearDraw => cases h; exact .clearedDraw
    | hostLoad rom =>
      obtain ⟨hrom, rfl⟩ := load_next h
      exact .loaded rom hrom
    | hostSnapshotWrite p =>
      obtain ⟨hp, rfl, hquit⟩ := restore_next h
      exact .restored p (hin ▸ List.mem_cons_self) hp hquit

/-! ### What every step keeps -/

theorem runInstruction_keeps_inbox_cfg {s t : State} (h : runInstruction s = .next t) :
    t.inbox = s.inbox ∧ t.cfg = s.cfg := by
  obtain ⟨-, rfl⟩ | ⟨-, hc | ⟨c, rfl⟩⟩ := runInstruction_cases h
  · exact ⟨rfl, rfl⟩
  · exact ⟨hc.inbox, hc.cfg⟩
  · exact ⟨rfl, rfl⟩

theorem StepsTo.inbox_cfg {s t : State} (h : StepsTo s t) : t.inbox = s.inbox.tail ∧ t.cfg = s.cfg := by
  cases h with
  | ran key rnd draws hrun h => exact runInstruction_keeps_inbox_cfg h
  | ticked =>
    have hframe := tick_frame s.dequeued
    exact ⟨(congrArg State.inbox hframe :), (congrArg State.cfg hframe :)⟩
  | stopped | changedRunState | clearedDraw | loaded | restored => exact ⟨rfl, rfl⟩

/-- Settles O59: the schedule is the queue's order, and the seven answers of a step share queue and configuration. -/
theorem stepServesOneRequestOnly : Obligations.StepServesOneRequestOnly := fun _ =>
  ⟨fun _ _ hin => step_of_cons hin, step_of_nil, fun _ h => (step_stepsTo h).inbox_cfg⟩

/-! ### The range of pc (R27) -/

theorem pcInRange_reset : PcInRange State.reset := by
  refine ⟨by decide, fun _ => by decide, fun w hw => ?_⟩
  rw [(Vector.mem_replicate.1 hw).2]
  decide

/-- A fault leaves pc where the fetch's advance put it, so 0x1100 at most. -/
theorem pcInRange_raise {s : State} (hpc : s.pc.toNat ≤ 0x1100) (hstack : ∀ w ∈ s.stack, w.toNat ≤ 0xFFF)
    (c : FaultCause) : PcInRange (s.raise c) := ⟨hpc, fun hq => absurd rfl hq, hstack⟩

/-- An instruction fetched below 0xFFE ends at 0x10FE at most: a skip and a return stay below BNNN's farthest target, and
FX0A steps back no further than to the instruction itself. -/
theorem Completes.pcInRange {s t : State} (h : Completes s t) (hlow : 2 ≤ s.pc.toNat) (hhigh : s.pc.toNat ≤ 0xFFF)
    (hstack : ∀ w ∈ s.stack, w.toNat ≤ 0xFFF) : PcInRange t := by
  have hpc : t.pc.toNat ≤ 0x10FE := by
    cases h.pc with
    | stays e => rw [e]; omega
    | skips e | rewinds e => rw [e]; bv_omega
    | returns hmem => exact (hstack _ hmem).trans (by decide)
    | jumps hle => exact hle
  refine ⟨hpc.trans (by decide), fun _ => hpc, fun w hw => ?_⟩
  obtain hw | rfl := h.stack w hw
  · exact hstack w hw
  · exact hhigh

/-- One fetch, decode and execute keeps the range: the advance, from 0x10FE at most, does not wrap. -/
theorem runInstruction_pcInRange {s t : State} (h : runInstruction s = .next t) (hrun : s.runState = .running)
    (hs : PcInRange s) : PcInRange t := by
  obtain ⟨-, hpc, hstack⟩ := hs
  have hlive : s.pc.toNat ≤ 0x10FE := hpc (by rw [hrun]; decide)
  have hadv : s.clearStepDrew.advance.pc.toNat = s.pc.toNat + 2 := by
    rw [State.advance_eq, State.setPc_pc, State.clearStepDrew_pc]; bv_omega
  obtain ⟨-, rfl⟩ | ⟨hok, hc | ⟨c, rfl⟩⟩ := runInstruction_cases h
  · exact pcInRange_raise (s := s.clearStepDrew.advance) (by omega) hstack _
  · exact hc.pcInRange (by omega) (by omega) hstack
  · exact pcInRange_raise (s := s.clearStepDrew.advance) (by omega) hstack c

/-- Every step but a restore keeps the range; a restore is shut out by the queue. -/
theorem StepsTo.pcInRange {s t : State} (hq : NoRestoreQueued s) (hs : PcInRange s) (h : StepsTo s t) : PcInRange t := by
  cases h with
  | ran key rnd draws hrun h => exact runInstruction_pcInRange h hrun hs
  | ticked =>
    by_cases hquit : s.dequeued.runState = .quit
    · rw [tick_quit hquit]; exact hs
    · rw [tick_live hquit]; exact hs
  | changedRunState wanted hquit =>
    obtain ⟨hpc, hlive, hstack⟩ := hs
    exact ⟨hpc, fun hw => hlive fun hs => hw (hquit hs), hstack⟩
  | loaded rom hrom => exact pcInRange_reset
  | restored p hmem => exact absurd hmem (hq p)
  | stopped | clearedDraw => exact hs

/-- Settles O57: the range is kept by each of a step's seven answers, and the queue only loses requests. -/
theorem stepKeepsPcInRange : Obligations.StepKeepsPcInRange := by
  intro s t hq hs hstep
  have h := step_stepsTo hstep
  refine ⟨fun p hp => hq p ?_, h.pcInRange hq hs⟩
  rw [h.inbox_cfg.1] at hp
  exact List.mem_of_mem_tail hp

end Sys2Proof.Machine
end

section
/-! PROOFS for 10_state.md, part 2: the inputs and their readers (R35, R171, R275), the ROM load (R44, R290-R293), saving and
restoring (R46, R296), and the reset state. -/

namespace Sys2Proof.Machine

/-! ### Inputs -/

/-- Settles O46: another keypad vector, or another random byte, is a change of ports that the instruction does not read. -/
theorem inputsReachOnlyTheirReaders : Obligations.InputsReachOnlyTheirReaders := fun i s =>
  ⟨fun hk k => exec_mapPorts (κ := fun _ => k) i s (fun _ => rfl) (by simp [hk]) (fun _ => rfl),
    fun hr r => exec_mapPorts (ρ := fun _ => r) i s (fun _ => rfl) (fun _ => rfl) (by simp [hr])⟩

/-! ### ROM load -/

theorem load_of_le {rom : List Byte} (h : rom.length ≤ 3584) (s : State) : s.load rom = .next (s.loaded rom) :=
  if_neg (by simpa using h)

section
variable (cfg : Config) {rom : List Byte} (hrom : rom.length ≤ 3584)
include hrom

theorem read_loadedMem_font {a : Nat} (ha : a < 80) : (State.loadedMem cfg rom).read a = cfg.font[a] := by
  simp [read_loadedMem cfg hrom, ha]

theorem read_loadedMem_rom {j : Nat} (hj : j < rom.length) : (State.loadedMem cfg rom).read (0x200 + j) = rom[j] := by
  rw [read_loadedMem cfg hrom, if_neg (by omega), if_pos (by omega)]
  simp [hj]

/-- What lies outside the font and the ROM reads 0 (R44). -/
theorem read_loadedMem_outside {a : Nat} (hfont : 80 ≤ a) (hout : a < 0x200 ∨ 0x200 + rom.length ≤ a) :
    (State.loadedMem cfg rom).read a = 0 := by
  rw [read_loadedMem cfg hrom, if_neg (by omega), if_neg (by omega)]

end

theorem reset_readV (r : Nibble) : State.reset.readV r = 0 := Vector.getElem_replicate _

/-- Settles O51: the step serves the load, whose memory is read range by range; the rest is State.reset's. -/
theorem loadLeavesTheResetState : Obligations.LoadLeavesTheResetState := by
  intro s rom rest hin hrom
  refine ⟨(s.setInbox rest).loaded rom, (step_of_cons hin).trans (load_of_le hrom _), ?_⟩
  exact ⟨fun _ => read_loadedMem_font s.cfg hrom,
    fun _ hfont hlt => read_loadedMem_outside s.cfg hrom hfont (.inl hlt),
    fun _ => read_loadedMem_rom s.cfg hrom,
    fun _ hle _ => read_loadedMem_outside s.cfg hrom (by omega) (.inr hle),
    reset_readV, rfl, rfl, fun _ _ => Vector.getElem_replicate _, rfl, rfl, rfl, Display.pixel_blank,
    rfl, rfl, rfl, rfl, rfl, rfl, rfl, rfl⟩

/-! ### Saving and restoring -/

/-- The pixels of a display made from 2048 pixels, in row-major order (R34), are those pixels. -/
theorem pixels_ofPixels {l : List Bool} (hl : l.length = 2048) :
    (List.range (Config.W * Config.H)).map (fun k => (Display.ofPixels l).pixel (k % Config.W) (k / Config.W)) = l := by
  refine List.ext_getElem (by simp [hl]) fun k hk hk' => ?_
  have hrow : k / 64 * 64 + k % 64 = k := by omega
  simp [pixel_ofPixels l (k % 64) (k / 64) (by omega) (by omega), hrow, hk']

/-- An admissible snapshot reads back as it was restored: R46 keeps SP, kw_key and the pixels in their ranges. -/
theorem save_replacedBy {p : Snapshot} (hp : p.admissible = true) (s : State) : (s.replacedBy p).save = p := by
  obtain ⟨hSP, hkw, hdisp, -⟩ := (admissible_iff p).1 hp
  have eSP : (Fin.ofNat 13 p.SP).val = p.SP := Nat.mod_eq_of_lt (by omega)
  have ekw : (BitVec.ofNat 4 p.kwKey).toNat = p.kwKey := Nat.mod_eq_of_lt (by omega)
  rw [State.save, State.replacedBy, eSP, ekw, pixels_ofPixels hdisp]

theorem admissible_save {s : State} (hwf : s.mem.wf = true) : s.save.admissible = true :=
  (admissible_iff _).2 ⟨Nat.le_of_lt_succ s.SP.isLt, Nat.le_of_lt_succ s.kwKey.isLt, by simp [State.save], hwf⟩

theorem replacedBy_save (s : State) : s.replacedBy s.save = s := by
  rw [State.replacedBy, ofPixels_save]
  simp [State.save]

theorem quitForbids_save (s : State) : s.quitForbids s.save = false := by
  simp [State.quitForbids, State.save]

/-- Settles O53: the snapshot of a state is admissible, Quit does not forbid it, and it replaces the state by itself. -/
theorem restoreInvertsSave : Obligations.RestoreInvertsSave := by
  intro s hwf
  rw [State.restore, if_pos (admissible_save hwf), quitForbids_save, replacedBy_save]
  exact if_neg Bool.false_ne_true

/-- Settles O52: the three answers of a restore have the three conditions of the statement. -/
theorem restoreReplacesTheWholeState : Obligations.RestoreReplacesTheWholeState := by
  intro s p rest hin
  rw [step_of_cons hin, serve]
  refine ⟨fun hbad => if_neg fun hp => hbad ((admissible_iff p).1 hp), fun hp => ?_⟩
  have hadm : p.admissible = true := (admissible_iff p).2 hp
  rw [State.restore, if_pos hadm]
  refine ⟨fun hq => if_pos ((quitForbids_iff p (s.setInbox rest)).2 hq), fun hq =>
    ⟨(s.setInbox rest).replacedBy p, if_neg fun hf => ?_, save_replacedBy hadm _, rfl, rfl, rfl, rfl, rfl, rfl⟩⟩
  obtain ⟨hs, hchange⟩ := (quitForbids_iff p (s.setInbox rest)).1 hf
  obtain hne | ⟨hsame, hcause⟩ := hq
  · exact hne hs
  · exact hchange.elim (fun h => h hsame) (fun h => h hcause)

/-! ### Reset -/

/-- With no ROM, the memory after load lists nothing: an unlisted address reads as the default font, or as 0. -/
theorem loadedMem_reset : State.loadedMem State.reset.cfg [] = [] := by decide

/-- Loading the empty ROM into the reset state gives the reset state. -/
theorem loaded_reset : State.reset.loaded [] = State.reset := by
  rw [State.loaded, loadedMem_reset]
  rfl

/-- Settles O54: the load is loaded_reset, and the fixed values are read off State.reset. -/
theorem resetIsTheEmptyLoad : Obligations.ResetIsTheEmptyLoad := by
  refine ⟨?_, rfl, rfl, rfl, rfl, rfl, rfl, rfl, rfl, rfl, rfl, rfl, rfl⟩
  rw [load_of_le (Nat.zero_le _), loaded_reset]

/-- Settles O55: nothing is listed or queued, pc is 0x200, every stack entry is 0, and no fault is recorded. -/
theorem resetMeetsTheInvariants : Obligations.ResetMeetsTheInvariants :=
  ⟨rfl, fun _ => List.not_mem_nil, pcInRange_reset, fun h => absurd rfl h, rfl⟩

end Sys2Proof.Machine
end

section
/-! PROOFS for 20_memory.md: what an instruction does to memory, said once (R14, R55), the canonical form that every step
keeps (R50), and the fetch of bytes just stored (R59, R61). -/

namespace Sys2Proof.Machine

/-! ### What an instruction does to memory -/

/-- Memory is as before, or a run of bytes has been stored from I up, none of them above 0xFFF (R55). -/
inductive MemMoves (s t : State) : Prop where
  | stays (h : t.mem = s.mem)
  | stores (l : List Byte) (hfit : s.I.toNat + l.length ≤ 0x1000) (h : t.mem = s.mem.storeBytes s.I.toNat l)

namespace MemMoves

variable {s t e : State}

theorem of_next (h : (.next e : Host.Outcome State Fault Refusal) = .next t) (he : e.mem = s.mem) : MemMoves s t := by
  cases h; exact .stays he

theorem of_raiseIf {bad : Bool} {c : FaultCause} (h : raiseIf bad c s e = .next t) (he : e.mem = s.mem) :
    MemMoves s t := by
  obtain ⟨-, rfl⟩ | ⟨-, rfl⟩ := raiseIf_next h
  · exact .stays rfl
  · exact .stays he

/-- A store that the bounds rule guards: the rule checks all the bytes before the first is written (R55). -/
theorem of_raiseIf_outOfBounds {l : List Byte} {count : Nat} {c : FaultCause}
    (h : raiseIf (s.outOfBounds count) c s e = .next t) (hl : l.length = count)
    (he : e.mem = s.mem.storeBytes s.I.toNat l) : MemMoves s t := by
  obtain ⟨-, rfl⟩ | ⟨hok, rfl⟩ := raiseIf_next h
  · exact .stays rfl
  · obtain hfit | hnone := (State.outOfBounds_false_iff count s).1 hok
    · exact .stores l (hl ▸ hfit) he
    · obtain rfl := List.length_eq_zero_iff.1 (hl.trans hnone)
      exact .stays he

theorem of_exec00EE (u : Nibble) (h : exec00EE u s = .next t) : MemMoves s t := by
  unfold exec00EE at h
  split at h
  · exact of_next h rfl
  · next target e hpop =>
    obtain ⟨hs, -, rfl⟩ := State.pop_eq_some hpop
    exact of_next h rfl

theorem of_exec2NNN (nnn : Addr12) (h : exec2NNN nnn s = .next t) : MemMoves s t := by
  unfold exec2NNN at h
  split at h
  · exact of_next h rfl
  · next e hpush =>
    obtain ⟨hs, rfl⟩ := State.push_eq_some hpush
    exact of_next h rfl

theorem of_execFX0A (x : Nibble) (h : execFX0A x s = .next t) : MemMoves s t := by
  refine of_next h ?_
  split
  · unfold State.awaitRelease; split <;> rfl
  · unfold State.seekKey; split <;> rfl

/-- What an instruction can do to memory: only FX33 and FX55 store, and both under the bounds rule. -/
theorem of_exec {i : Instr} (h : exec i s = .next t) : MemMoves s t := by
  cases i with
  | opFX33 x => exact of_raiseIf_outOfBounds (l := bcdDigits (s.readV x)) h rfl rfl
  | opFX55 x => exact of_raiseIf_outOfBounds h (State.length_regsUpTo x s) (by simp)
  | opFX65 | opEX9E | opEXA1 => exact of_raiseIf h (by simp)
  | opDXYN => exact of_raiseIf h rfl
  | op00EE u => exact of_exec00EE u h
  | op2NNN nnn => exact of_exec2NNN nnn h
  | opFX0A x => exact of_execFX0A x h
  | op3XNN | op4XNN | op5XY0 | op9XY0 | op8XY1 | op8XY2 | op8XY3 => exact of_next h (by simp)
  | op00E0 | op1NNN | op6XNN | op7XNN | op8XY0 | op8XY4 | op8XY5 | op8XY6 | op8XY7 | op8XYE | opANNN | opBNNN | opCXNN
    | opFX07 | opFX15 | opFX18 | opFX1E | opFX29 | nop => exact of_next h rfl

theorem keeps_wf (h : MemMoves s t) (hs : s.mem.wf = true) : t.mem.wf = true := by
  cases h with
  | stays h => rw [h]; exact hs
  | stores l hfit h => rw [h]; exact Memory.wf_storeBytes hs hfit

end MemMoves

/-! ### The canonical form -/

theorem runInstruction_mem_wf {s t : State} (h : runInstruction s = .next t) (hs : s.mem.wf = true) :
    t.mem.wf = true := by
  by_cases hpc : s.pc.toNat < 0xFFE
  · rw [runInstruction_of_ok hpc] at h
    exact (MemMoves.of_exec h).keeps_wf hs
  · rw [runInstruction_of_bad (by omega)] at h
    cases h
    exact hs

/-- A load writes a canonical memory, a restore admits no other (log 12), and the other answers leave memory to the
instruction. -/
theorem StepsTo.mem_wf {s t : State} (h : StepsTo s t) (hs : s.mem.wf = true) : t.mem.wf = true := by
  cases h with
  | ran key rnd draws hrun h => exact runInstruction_mem_wf h hs
  | ticked =>
    have hmem : s.dequeued.tick.mem = s.mem := (congrArg State.mem (tick_frame s.dequeued) :)
    rw [hmem]; exact hs
  | loaded rom hrom => exact wf_loadedMem s.cfg hrom
  | restored p hmem hp =>
    obtain ⟨-, -, -, hwf⟩ := (admissible_iff p).1 hp
    exact hwf
  | stopped | changedRunState | clearedDraw => exact hs

/-- Settles O56: each of a step's seven answers keeps the canonical form. -/
theorem stepKeepsMemoryCanonical : Obligations.StepKeepsMemoryCanonical := fun _ _ hs hstep =>
  (step_stepsTo hstep).mem_wf hs

/-! ### Stored code -/

theorem exec_opFX55_of_le {x : Nibble} {s : State} (h : s.I.toNat + x.toNat ≤ 0xFFF) :
    exec (.opFX55 x) s = .next ((s.storeAtI (s.regsUpTo x)).bumpI x) :=
  raiseIf_of_ok ((State.outOfBounds_false_iff _ s).2 (.inl (by omega))) _ _ _

/-- After FX55, byte `I + k` reads as register `k` (R204). -/
theorem read_storeBytes_regsUpTo {x : Nibble} {s : State} (hwf : s.mem.wf = true) (h : s.I.toNat + x.toNat ≤ 0xFFF)
    {k : Nat} (hk : k ≤ x.toNat) :
    (s.mem.storeBytes s.I.toNat (s.regsUpTo x)).read (s.I.toNat + k) = s.readV (BitVec.ofNat 4 k) := by
  have hlen := State.length_regsUpTo x s
  rw [Memory.read_storeBytes hwf (by omega), if_pos (by omega), Nat.add_sub_cancel_left, State.getD_regsUpTo x s hk]

theorem fetchWord_setPc (v : Word) (s : State) :
    (s.setPc v).fetchWord = wordOfBytes (s.mem.read v.toNat) (s.mem.read (v.toNat + 1)) := rfl

/-- Settles O38: the fetch reads memory itself, where bytes `I + k` and `I + k + 1` are registers `k` and `k + 1`. -/
theorem storedCodeIsFetchedNext : Obligations.StoredCodeIsFetchedNext := by
  intro x s hwf hfit
  refine ⟨_, exec_opFX55_of_le hfit, fun k hk => ?_⟩
  have haddr : (s.I + BitVec.ofNat 16 k).toNat = s.I.toNat + k := by
    rw [BitVec.toNat_add, BitVec.toNat_ofNat]; omega
  rw [fetchWord_setPc, State.bumpI_mem, State.storeAtI_eq, State.setMem_mem, haddr, Nat.add_assoc,
    read_storeBytes_regsUpTo hwf hfit (by omega), read_storeBytes_regsUpTo hwf hfit hk]

end Sys2Proof.Machine
end

section
/-! PROOFS for 30_encoding.md, part 1: the fields and the codec (R70, R71, R75), the no-op space with its counts (R86, R87),
and the dispatch against the opcode table's mask and match columns. -/

namespace Sys2Proof

open Machine

/-! ### Fields and codec -/

/-- Masking with the low `k` bits is taking the remainder. -/
theorem toNat_and_lowMask (w : Word) {k : Nat} (hk : k < 16) :
    (w &&& BitVec.ofNat 16 (2 ^ k - 1)).toNat = w.toNat % 2 ^ k := by
  have hpow : 2 ^ k < 2 ^ 16 := Nat.pow_lt_pow_right (by decide) hk
  rw [BitVec.toNat_and, BitVec.toNat_ofNat, Nat.mod_eq_of_lt (by omega), Nat.and_two_pow_sub_one_eq_mod]

/-- The four bits from bit `k` up, selected by R71's shift and mask. -/
theorem toNat_shift_and_F (w : Word) (k : Nat) : ((w >>> k) &&& 0xF).toNat = w.toNat / 2 ^ k % 16 := by
  exact (toNat_and_lowMask (w >>> k) (k := 4) (by decide)).trans
    (by rw [BitVec.toNat_ushiftRight, Nat.shiftRight_eq_div_pow]; rfl)

/-- Settles O5: each slice and its field are the same quotient and remainder of the word. -/
theorem fieldsAreSlicesOfTheWord : Obligations.FieldsAreSlicesOfTheWord := fun w =>
  ⟨(toNat_fieldNNN w).trans (toNat_and_lowMask w (k := 12) (by decide)).symm,
    (toNat_fieldNN w).trans (toNat_and_lowMask w (k := 8) (by decide)).symm,
    (toNat_fieldN w).trans (toNat_and_lowMask w (k := 4) (by decide)).symm,
    (toNat_fieldX w).trans (toNat_shift_and_F w 8).symm,
    (toNat_fieldY w).trans (toNat_shift_and_F w 4).symm,
    (toNat_fieldHi w).trans (toNat_shift_and_F w 12).symm⟩

/-- Settles O6: the twenty-one words are fixed, so the dispatch is run on each. -/
theorem spelledOutWordsDecode : Obligations.SpelledOutWordsDecode := by
  unfold Obligations.SpelledOutWordsDecode
  decide

/-- A well-formed instruction is what its word decodes to: the round trip of each constructor. -/
theorem decodeWord_encode : ∀ {i : Instr}, i.wellFormed = true → decodeWord (encode i) = i
  | .op00E0 u => Laws.RoundTrip.op00E0 u
  | .op00EE u => Laws.RoundTrip.op00EE u
  | .op1NNN nnn => Laws.RoundTrip.op1NNN nnn
  | .op2NNN nnn => Laws.RoundTrip.op2NNN nnn
  | .op3XNN x nn => Laws.RoundTrip.op3XNN x nn
  | .op4XNN x nn => Laws.RoundTrip.op4XNN x nn
  | .op5XY0 x y => Laws.RoundTrip.op5XY0 x y
  | .op6XNN x nn => Laws.RoundTrip.op6XNN x nn
  | .op7XNN x nn => Laws.RoundTrip.op7XNN x nn
  | .op8XY0 x y => Laws.RoundTrip.op8XY0 x y
  | .op8XY1 x y => Laws.RoundTrip.op8XY1 x y
  | .op8XY2 x y => Laws.RoundTrip.op8XY2 x y
  | .op8XY3 x y => Laws.RoundTrip.op8XY3 x y
  | .op8XY4 x y => Laws.RoundTrip.op8XY4 x y
  | .op8XY5 x y => Laws.RoundTrip.op8XY5 x y
  | .op8XY6 x y => Laws.RoundTrip.op8XY6 x y
  | .op8XY7 x y => Laws.RoundTrip.op8XY7 x y
  | .op8XYE x y => Laws.RoundTrip.op8XYE x y
  | .op9XY0 x y => Laws.RoundTrip.op9XY0 x y
  | .opANNN nnn => Laws.RoundTrip.opANNN nnn
  | .opBNNN nnn => Laws.RoundTrip.opBNNN nnn
  | .opCXNN x nn => Laws.RoundTrip.opCXNN x nn
  | .opDXYN x y n => Laws.RoundTrip.opDXYN x y n
  | .opEX9E x => Laws.RoundTrip.opEX9E x
  | .opEXA1 x => Laws.RoundTrip.opEXA1 x
  | .opFX07 x => Laws.RoundTrip.opFX07 x
  | .opFX0A x => Laws.RoundTrip.opFX0A x
  | .opFX15 x => Laws.RoundTrip.opFX15 x
  | .opFX18 x => Laws.RoundTrip.opFX18 x
  | .opFX1E x => Laws.RoundTrip.opFX1E x
  | .opFX29 x => Laws.RoundTrip.opFX29 x
  | .opFX33 x => Laws.RoundTrip.opFX33 x
  | .opFX55 x => Laws.RoundTrip.opFX55 x
  | .opFX65 x => Laws.RoundTrip.opFX65 x
  | .nop w => Laws.RoundTrip.nop w

/-- Settles O1: the two bytes give the word back, and the word the instruction. -/
theorem decodeInvertsEncode : Obligations.DecodeInvertsEncode := by
  intro i rest hwf
  calc decode (encodeBytes i ++ rest) = .ok (decodeWord (encode i), rest) := decode_bytes (encode i) rest
    _ = .ok (i, rest) := by rw [decodeWord_encode hwf]

/-! ### The no-op space -/

/-- A word decodes to the no-op exactly when R87's table lists it: the codec is inverse in both directions. -/
theorem decodeWord_eq_nop_iff (w : Word) : decodeWord w = .nop w ↔ inNoOpSpace w = true := by
  constructor
  · intro h
    have hwf : (Instr.nop w).wellFormed = true := h ▸ (decodeWord_standsFor w).1
    exact hwf
  · exact Laws.RoundTrip.nop w

/-- How many of the 256 values of NN make a no-op word under one high nibble. -/
def noOpTails (hi : Nibble) : Nat :=
  ((List.range 256).filter fun nn => inNoOpSpace (packXNN hi 0 (BitVec.ofNat 8 nn))).length

/-- Each of the 16 values of X has the same no-op words. -/
theorem noOpCount_eq (hi : Nibble) : noOpCount hi = 16 * noOpTails hi := by
  simp only [noOpCount, noOpTails, inNoOpSpace_packXNN hi (BitVec.ofNat 4 _), List.map_const', List.sum_replicate,
    List.length_range, smul_eq_mul]

/-- The families that dispatch on the high nibble alone (R75) have no no-op word. -/
theorem noOpCount_of_unkeyed {hi : Nibble} (h : hi ∉ ([0x0, 0x5, 0x8, 0x9, 0xE, 0xF] : List Nibble)) :
    noOpCount hi = 0 := by
  have hno (nn : Byte) : inNoOpSpace (packXNN hi 0 nn) = false := by
    rw [inNoOpSpace_eq, fieldHi_packXNN]
    split <;> simp_all [BitVec.toNat_eq_nat]
  rw [noOpCount_eq, noOpTails]
  simp only [hno, List.filter_false, List.length_nil, mul_zero]

/-- R87's six counts. -/
theorem noOpCount_keyed : noOpCount 0x0 = 4064 ∧ noOpCount 0x5 = 3840 ∧ noOpCount 0x8 = 1792 ∧ noOpCount 0x9 = 3840 ∧
    noOpCount 0xE = 4064 ∧ noOpCount 0xF = 3952 := by
  simp only [noOpCount_eq]
  decide +kernel

theorem sum_noOpCount : ((List.range 16).map fun hi => noOpCount (BitVec.ofNat 4 hi)).sum = 21552 := by
  have hkeyed := noOpCount_keyed
  simp only [BitVec.ofNat_eq_ofNat] at hkeyed
  simp [List.range_succ, noOpCount_of_unkeyed, hkeyed]

/-! ### The opcode table -/

/-- Every mask of the table keeps the high nibble, so a row admits words of its own family only. -/
theorem fieldHi_pattern_of_admits {r : OpcodeRow} {w : Word} (hr : r ∈ opcodeRows) (h : r.admits w = true) :
    fieldHi r.pattern = fieldHi w := by
  have hmask : ∀ r ∈ opcodeRows, r.mask &&& 0xF000 = 0xF000 := by decide
  have hp : w &&& r.mask = r.pattern := by simpa [OpcodeRow.admits] using h
  rw [← and_F000_eq_iff, ← and_F000, ← hp, BitVec.and_assoc, hmask r hr]

/-- The rows that admit a word are found in its family. -/
theorem filter_admits_eq {w : Word} {hi : Nibble} (h : fieldHi w = hi) :
    opcodeRows.filter (·.admits w) = (opcodeRows.filter (fieldHi ·.pattern == hi)).filter (·.admits w) := by
  rw [List.filter_filter]
  refine List.filter_congr fun r hr => ?_
  cases hw : r.admits w
  · rfl
  · simp [fieldHi_pattern_of_admits hr hw, h]

/-- The names of the rows that admit a word. -/
def admittingRows (w : Word) : List String := (opcodeRows.filter (·.admits w)).map (·.mnemonic)

section
variable {w : Word} {hi : Nibble} (h : fieldHi w = hi)
include h

/-- The one row of a family that dispatches on the high nibble alone. -/
theorem admittingRows_unkeyed {name : String}
    (hrows : opcodeRows.filter (fieldHi ·.pattern == hi) = [⟨name, 0xF000, packXYN hi 0 0 0⟩]) :
    admittingRows w = [name] := by
  have hadm : OpcodeRow.admits ⟨name, 0xF000, packXYN hi 0 0 0⟩ w = true := beq_iff_eq.2 ((and_F000_eq_iff w hi).2 h)
  rw [admittingRows, filter_admits_eq h, hrows, List.filter_singleton, hadm]
  rfl

/-- The rows of a family that dispatches on N. -/
theorem admittingRows_keyedN (keys : List (String × Nibble))
    (hrows : opcodeRows.filter (fieldHi ·.pattern == hi) = keys.map fun k => ⟨k.1, 0xF00F, packXYN hi 0 0 k.2⟩) :
    admittingRows w = (keys.filter (fieldN w == ·.2)).map (·.1) := by
  have hadm (k : String × Nibble) : OpcodeRow.admits ⟨k.1, 0xF00F, packXYN hi 0 0 k.2⟩ w = (fieldN w == k.2) := by
    rw [Bool.eq_iff_iff, OpcodeRow.admits, beq_iff_eq, beq_iff_eq, and_F00F_eq_iff]
    exact and_iff_right h
  simp only [admittingRows, filter_admits_eq h, hrows, List.filter_map, Function.comp_def, hadm, List.map_map]

/-- The rows of a family that dispatches on NN. -/
theorem admittingRows_keyedNN (keys : List (String × Byte))
    (hrows : opcodeRows.filter (fieldHi ·.pattern == hi) = keys.map fun k => ⟨k.1, 0xF0FF, packXNN hi 0 k.2⟩) :
    admittingRows w = (keys.filter (fieldNN w == ·.2)).map (·.1) := by
  have hadm (k : String × Byte) : OpcodeRow.admits ⟨k.1, 0xF0FF, packXNN hi 0 k.2⟩ w = (fieldNN w == k.2) := by
    rw [Bool.eq_iff_iff, OpcodeRow.admits, beq_iff_eq, beq_iff_eq, and_F0FF_eq_iff]
    exact and_iff_right h
  simp only [admittingRows, filter_admits_eq h, hrows, List.filter_map, Function.comp_def, hadm, List.map_map]

end

/-- The table's rows of an instruction: the row of its name, and none for the default no-op (R86). -/
def Instr.rowNames : Instr → List String
  | .nop _ => []
  | i => [i.mnemonic]

theorem rowNames_decodeWord (w : Word) :
    (decodeWord w).rowNames = if inNoOpSpace w then [] else [(decodeWord w).mnemonic] := by
  by_cases hnop : inNoOpSpace w = true
  · rw [if_pos hnop, (decodeWord_eq_nop_iff w).2 hnop]; rfl
  · rw [if_neg hnop]
    cases hi : decodeWord w with
    | nop v =>
      obtain ⟨hwf, henc⟩ := hi ▸ decodeWord_standsFor w
      obtain rfl : v = w := henc
      exact absurd hwf hnop
    | _ => rfl

section
variable {w : Word}

theorem admittingRows_dispatch0 (h : fieldHi w = 0x0) : admittingRows w = (dispatch0 w).rowNames := by
  rw [admittingRows_keyedNN h [("00E0", 0xE0), ("00EE", 0xEE)] rfl, dispatch0]
  repeat' split
  case isFalse => simp_all [Instr.rowNames]
  all_goals next hnn => rw [hnn]; rfl

theorem admittingRows_dispatchF (h : fieldHi w = 0xF) : admittingRows w = (dispatchF w).rowNames := by
  rw [admittingRows_keyedNN h [("FX07", 0x07), ("FX0A", 0x0A), ("FX15", 0x15), ("FX18", 0x18), ("FX1E", 0x1E), ("FX29", 0x29),
    ("FX33", 0x33), ("FX55", 0x55), ("FX65", 0x65)] rfl, dispatchF]
  repeat' split
  case isFalse => simp_all [Instr.rowNames]
  all_goals next hnn => rw [hnn]; rfl

theorem admittingRows_dispatch8 (h : fieldHi w = 0x8) : admittingRows w = (dispatch8 w).rowNames := by
  rw [admittingRows_keyedN h [("8XY0", 0x0), ("8XY1", 0x1), ("8XY2", 0x2), ("8XY3", 0x3), ("8XY4", 0x4), ("8XY5", 0x5),
    ("8XY6", 0x6), ("8XY7", 0x7), ("8XYE", 0xE)] rfl, dispatch8]
  split
  case h_10 => simp_all [BitVec.toNat_eq_nat, Instr.rowNames]
  all_goals next hn => rw [(BitVec.toNat_eq_nat.1 hn).2]; rfl

theorem admittingRows_dispatchE (h : fieldHi w = 0xE) : admittingRows w = (dispatchE w).rowNames := by
  rw [admittingRows_keyedNN h [("EX9E", 0x9E), ("EXA1", 0xA1)] rfl, dispatchE]
  repeat' split
  case isFalse => simp_all [Instr.rowNames]
  all_goals next hnn => rw [hnn]; rfl

/-- A family with one row, for N = 0 (R77, R79). -/
theorem admittingRows_ite_fieldN {hi : Nibble} {name : String} {i : Instr} (h : fieldHi w = hi)
    (hrows : opcodeRows.filter (fieldHi ·.pattern == hi) = [⟨name, 0xF00F, packXYN hi 0 0 0⟩]) (hname : i.rowNames = [name]) :
    admittingRows w = (if fieldN w = 0 then i else .nop w).rowNames := by
  rw [admittingRows_keyedN h [(name, 0)] hrows]
  split
  · next hn => rw [hn, hname]; rfl
  · simp_all [Instr.rowNames]

end

/-- The rows that admit a word are those of its instruction: one case per high nibble. -/
theorem admittingRows_eq (w : Word) : admittingRows w = (decodeWord w).rowNames := by
  have hlit {k : Nat} (h : (fieldHi w).toNat = k) : fieldHi w = BitVec.ofNat 4 k := (BitVec.toNat_eq_nat.1 h).2
  unfold decodeWord
  split
  · next h => exact admittingRows_dispatch0 (hlit h)
  · next h => exact admittingRows_unkeyed (hlit h) rfl
  · next h => exact admittingRows_unkeyed (hlit h) rfl
  · next h => exact admittingRows_unkeyed (hlit h) rfl
  · next h => exact admittingRows_unkeyed (hlit h) rfl
  · next h => exact admittingRows_ite_fieldN (hlit h) rfl rfl
  · next h => exact admittingRows_unkeyed (hlit h) rfl
  · next h => exact admittingRows_unkeyed (hlit h) rfl
  · next h => exact admittingRows_dispatch8 (hlit h)
  · next h => exact admittingRows_ite_fieldN (hlit h) rfl rfl
  · next h => exact admittingRows_unkeyed (hlit h) rfl
  · next h => exact admittingRows_unkeyed (hlit h) rfl
  · next h => exact admittingRows_unkeyed (hlit h) rfl
  · next h => exact admittingRows_unkeyed (hlit h) rfl
  · next h => exact admittingRows_dispatchE (hlit h)
  · have hlt := (fieldHi w).isLt
    have hF : (fieldHi w).toNat = 0xF := by
      simp only [imp_false] at *
      omega
    exact admittingRows_dispatchF (hlit hF)

/-- Settles O3: a word's rows are its instruction's, and only the no-op has none. -/
theorem decoderAgreesWithOpcodeTable : Obligations.DecoderAgreesWithOpcodeTable := fun w =>
  (admittingRows_eq w).trans (rowNames_decodeWord w)

/-- Settles O4: the no-op words are R87's, their counts are multiples of 16, and every other word has one row's name. -/
theorem noOpSpaceHasItsWordsAndCounts : Obligations.NoOpSpaceHasItsWordsAndCounts := by
  refine ⟨decodeWord_eq_nop_iff, noOpCount_keyed, sum_noOpCount, fun w hw => ?_⟩
  have hrows := decoderAgreesWithOpcodeTable w
  rw [hw] at hrows
  simpa using congrArg List.length hrows

end Sys2Proof
end

section
/-! PROOFS for 30_encoding.md, part 2: the step request from the fetch to the execution (R72-R74), in Running with pc on either
side of the check, and the steps that fetch a given word (R86; log 15). -/

namespace Sys2Proof.Machine

/-! ### The fetch -/

/-- `a + 2` of R72, as the model's words add it. -/
theorem pc_add_two (pc : Word) : pc + 2 = BitVec.ofNat 16 (pc.toNat + 2) := by
  rw [BitVec.ofNat_add, BitVec.ofNat_toNat, BitVec.setWidth_eq]
  rfl

section
variable {s : State} {key : Word} {rnd : Byte} {rest : List Request} (hin : s.inbox = .step key rnd :: rest)
include hin

/-- A step request outside Running only clears `step_drew` (R260). -/
theorem step_stopped (hstop : s.runState ≠ .running) : step s = .next { s with inbox := rest, stepDrew := false } :=
  (step_of_cons hin).trans (stepRequest_stopped (s := s.setInbox rest) hstop key rnd)

/-- A step request in Running at 0xFFE or above takes the fault of the pc check (R74). -/
theorem step_running_of_bad (hrun : s.runState = .running) (hpc : 0xFFE ≤ s.pc.toNat) :
    step s = .next { s with
      inbox := rest, key := key, rnd := rnd, pc := s.pc + 2, faultCause := .pcOutOfBounds, runState := .quit,
      stepDrew := false } := by
  rw [step_of_cons hin, serve, stepRequest_running (s := s.setInbox rest) hrun,
    runInstruction_of_bad (s := (s.setInbox rest).sample key rnd) hpc]
  rfl

/-- A step request in Running up to 0xFFD executes the word at pc (R72, R73). -/
theorem step_running_of_ok (hrun : s.runState = .running) (hpc : s.pc.toNat ≤ 0xFFD) :
    step s = exec (decodeWord s.fetchWord)
      { s with inbox := rest, key := key, rnd := rnd, stepDrew := false, pc := s.pc + 2 } := by
  rw [step_of_cons hin, serve, stepRequest_running (s := s.setInbox rest) hrun,
    runInstruction_of_ok (s := (s.setInbox rest).sample key rnd) (Nat.lt_succ_of_le hpc)]
  rfl

end

/-- Settles O7: the three branches of R72, in its order. -/
theorem stepRequestFetchesAndExecutes : Obligations.StepRequestFetchesAndExecutes := by
  intro s key rnd rest hin
  rw [← pc_add_two]
  split
  · next hstop => exact step_stopped hin hstop
  · next hrun =>
    have hrun : s.runState = .running := Decidable.not_not.1 hrun
    split
    · next hpc => exact step_running_of_bad hin hrun (by omega)
    · next hpc => exact step_running_of_ok hin hrun (by omega)

/-- Settles O10: the two sides of the check; the sum is exact, so only pc itself wraps. -/
theorem pcCheckGuardsEveryFetch : Obligations.PcCheckGuardsEveryFetch := fun s _ _ _ hin hrun =>
  ⟨fun hpc => ⟨_, step_running_of_bad hin hrun hpc, BitVec.toNat_add s.pc 2, rfl, rfl, rfl, rfl, rfl, rfl, rfl, rfl, rfl, rfl,
    rfl, rfl, rfl, rfl, rfl, rfl⟩, step_running_of_ok hin hrun⟩

/-- Settles O43: exec of the no-op is the identity, so the step leaves the state that the fetch made. -/
theorem noOpChangesNothing : Obligations.NoOpChangesNothing := by
  refine ⟨fun _ _ => rfl, fun s key rnd rest w hin hrun hpc hnop => ?_⟩
  rw [step_running_of_ok hin hrun hpc, hnop]
  rfl

/-! ### Steps with nothing queued -/

/-- With nothing queued, Running up to 0xFFD, a step executes the word at pc on free inputs (logs 4-6). -/
theorem step_unattended_of_ok {s : State} (hin : s.inbox = []) (hrun : s.runState = .running) (hpc : s.pc.toNat ≤ 0xFFD) :
    step s = exec (decodeWord s.fetchWord) s.drawFree.clearStepDrew.advance := by
  rw [step_of_nil hin, unattendedStep_running hrun, runInstruction_of_ok (s := s.drawFree) (Nat.lt_succ_of_le hpc)]
  rfl

/-- Settles O8: the two bytes at pc decode as the word that the fetch makes of them. -/
theorem stepRunsTheDecodedInstruction : Obligations.StepRunsTheDecodedInstruction := by
  intro s i hin hrun hpc hdec
  have hi : decodeWord s.fetchWord = i := congrArg Prod.fst (Except.ok.inj hdec)
  rw [step_unattended_of_ok hin hrun hpc, hi]
  rfl

/-! ### The placed word (log 15) -/

theorem withFetchWord_eq_placeWord (s : State) (w : Word) : s.withFetchWord 16 w.toNat = s.placeWord w := by
  rw [State.withFetchWord, min_self, Nat.mod_eq_of_lt w.isLt, BitVec.ofNat_toNat, BitVec.setWidth_eq]

theorem placeWord_pc (w : Word) (s : State) :
    (s.placeWord w).pc = if s.pc.toNat ≤ 0xFFD then s.pc else 0x200 := by
  have hcheck : s.pcOutOfBounds = decide (¬ s.pc.toNat ≤ 0xFFD) := by
    simp only [State.pcOutOfBounds, Config.topAddress, decide_eq_decide]; omega
  simp only [State.placeWord, hcheck, decide_eq_true_eq, ite_not]

theorem placeWord_pc_le (w : Word) (s : State) : (s.placeWord w).pc.toNat ≤ 0xFFD := by
  rw [placeWord_pc]
  split
  · next hpc => exact hpc
  · decide

/-- What the host places is what the next step fetches. -/
theorem fetchWord_placeWord (w : Word) {s : State} (hwf : s.mem.wf = true) : (s.placeWord w).fetchWord = w := by
  have hpc := placeWord_pc_le w s
  have hwf' := Memory.wf_write hwf (a := (s.placeWord w).pc.toNat) (by omega) (highByte w)
  have hmem : (s.placeWord w).mem = (s.mem.write (s.placeWord w).pc.toNat (highByte w)).write
      ((s.placeWord w).pc.toNat + 1) (lowByte w) := rfl
  rw [State.fetchWord, hmem, Memory.read_write hwf', Memory.read_write hwf', Memory.read_write hwf, if_neg (by omega), if_pos rfl,
    if_pos rfl, wordOfBytes_bytes]

/-- Settles O9: placing leaves an engine that fetches the word, and changes nothing that `u` is compared on but pc. -/
theorem placedWordRunsNext : Obligations.PlacedWordRunsNext := by
  intro s w hwf
  refine ⟨(s.placeWord w).drawFree.clearStepDrew.advance, ?_, congrArg (· + 2) (placeWord_pc w s), fun _ => rfl, rfl, rfl, rfl,
    rfl, rfl, rfl, rfl, rfl, rfl⟩
  rw [withFetchWord_eq_placeWord, step_unattended_of_ok rfl rfl (placeWord_pc_le w s), fetchWord_placeWord w hwf]

end Sys2Proof.Machine
end

section
/-! PROOFS for 30_encoding.md, part 3: every instruction stays in its footprint (R91). One rule per state operation says what
the operation may change; an instruction's frame is the chain of the rules of its operations. -/

namespace Sys2Proof.Machine

namespace Frame

variable {c : MayChange} {s t u : State}

/-- Two changes within one footprint, one after the other. -/
theorem trans (hst : Frame c s t) (htu : Frame c t u) : Frame c s u := by
  obtain ⟨hV, hI, hmem, hstack, hDT, hST, hdisp, hlatch, hrun, hcause, hsound, hcfg, hkey, hrnd, hinbox, hdraws⟩ := hst
  obtain ⟨hV', hI', hmem', hstack', hDT', hST', hdisp', hlatch', hrun', hcause', hsound', hcfg', hkey', hrnd', hinbox',
    hdraws'⟩ := htu
  exact ⟨fun r hr => (hV' r hr).trans (hV r hr), fun h => (hI' h).trans (hI h), fun a ha => (hmem' a ha).trans (hmem a ha),
    fun h => ⟨(hstack' h).1.trans (hstack h).1, (hstack' h).2.trans (hstack h).2⟩, fun h => (hDT' h).trans (hDT h),
    fun h => (hST' h).trans (hST h),
    fun h => ⟨(hdisp' h).1.trans (hdisp h).1, (hdisp' h).2.1.trans (hdisp h).2.1, (hdisp' h).2.2.trans (hdisp h).2.2⟩,
    fun h => ⟨(hlatch' h).1.trans (hlatch h).1, (hlatch' h).2.trans (hlatch h).2⟩, hrun'.trans hrun, hcause'.trans hcause,
    hsound'.trans hsound, hcfg'.trans hcfg, hkey'.trans hkey, hrnd'.trans hrnd, hinbox'.trans hinbox, hdraws'.trans hdraws⟩

/-! ### One rule per operation -/

theorem refl : Frame c s s := by simp [Frame]

theorem setPc (h : Frame c s t) (v : Word) : Frame c s (t.setPc v) := h.trans (by simp [Frame])

theorem skipIf (h : Frame c s t) (b : Bool) : Frame c s (t.skipIf b) := h.trans (by simp [Frame])

theorem setI (h : Frame c s t) (hc : c.index = true) (v : Word) : Frame c s (t.setI v) := h.trans (by simp [Frame, hc])

theorem setDT (h : Frame c s t) (hc : c.dt = true) (v : Byte) : Frame c s (t.setDT v) := h.trans (by simp [Frame, hc])

theorem setST (h : Frame c s t) (hc : c.st = true) (v : Byte) : Frame c s (t.setST v) := h.trans (by simp [Frame, hc])

theorem present (h : Frame c s t) (hc : c.display = true) (d : Display) : Frame c s (t.present d) :=
  h.trans (by simp [Frame, hc])

theorem latchKey (h : Frame c s t) (hc : c.latch = true) (k : Nibble) : Frame c s (t.latchKey k) :=
  h.trans (by simp [Frame, hc])

theorem releaseLatch (h : Frame c s t) (hc : c.latch = true) : Frame c s t.releaseLatch := h.trans (by simp [Frame, hc])

theorem writeV (h : Frame c s t) {x : Nibble} (hc : x ∈ c.regs) (v : Byte) : Frame c s (t.writeV x v) := by
  have hne : ∀ r, r ∉ c.regs → r ≠ x := fun r hr e => hr (e ▸ hc)
  exact h.trans (by simpa [Frame] using fun r hr => State.readV_writeV_ne (hne r hr) v t)

/-- The stack and its cursor, by a push or a pop. -/
theorem setStack (h : Frame c s t) (hc : c.stack = true) (stack : Vector Word 12) (SP : Fin 13) :
    Frame c s { t with stack := stack, SP := SP } := h.trans (by simp [Frame, hc, State.readV])

/-- A run of bytes stored where the footprint says (R55). -/
theorem storeAtI (h : Frame c s t) {l : List Byte} (hc : c.mem = some (t.I.toNat, l.length)) :
    Frame c s (t.storeAtI l) := by
  have hread : ∀ a, a < t.I.toNat ∨ t.I.toNat + l.length ≤ a →
      (t.mem.storeBytes t.I.toNat l).read a = t.mem.read a := fun _ => Memory.read_storeBytes_outside t.mem
  exact h.trans (by simpa [Frame, hc] using hread)

/-- The block load of FX65 (R205). -/
theorem setV_loadRegs (h : Frame c s t) {m : Memory} {base count : Nat}
    (hc : ∀ r : Nibble, r.toNat < count → r ∈ c.regs) : Frame c s (t.setV (State.loadRegs m base count t.V)) := by
  have hkeep : ∀ r, r ∉ c.regs → (t.setV (State.loadRegs m base count t.V)).readV r = t.readV r := fun r hr =>
    (State.getElem_loadRegs m base count t.V r.toNat r.isLt).trans (if_neg fun hlt => hr (hc r hlt))
  exact h.trans (by simpa [Frame] using hkeep)

/-- The variant's clearing of VF (R163-R165). -/
theorem resetFlagQuirk (h : Frame c s t) (hc : t.cfg.variant = .chip8 → 0xF ∈ c.regs) : Frame c s t.resetFlagQuirk := by
  unfold State.resetFlagQuirk
  split
  · next hv => exact h.writeV (hc hv) 0
  · exact h

/-- The variant's increment of I (R204, R205). -/
theorem bumpI (h : Frame c s t) (hc : t.cfg.variant = .chip8 → c.index = true) (x : Nibble) : Frame c s (t.bumpI x) := by
  unfold State.bumpI
  split
  · next hv => exact h.setI (hc hv) _
  · exact h

/-- A difference of two registers: VF, then the destination (R167, R169). -/
theorem subtractInto (h : Frame c s t) {x : Nibble} (hx : x ∈ c.regs) (hF : 0xF ∈ c.regs) (a b : Nibble) :
    Frame c s (t.subtractInto x a b) := (h.writeV hF _).writeV hx _

/-- FX0A with no key latched (R233). -/
theorem seekKey (h : Frame c s t) (hc : c.latch = true) : Frame c s t.seekKey := by
  unfold State.seekKey
  split
  · exact h.setPc _
  · exact (h.latchKey hc _).setPc _

/-- FX0A with a key latched (R233). -/
theorem awaitRelease (h : Frame c s t) {x : Nibble} (hx : x ∈ c.regs) (hc : c.latch = true) :
    Frame c s (t.awaitRelease x) := by
  unfold State.awaitRelease
  split
  · exact h.setPc _
  · exact (h.writeV hx _).releaseLatch hc

end Frame

/-! ### The registers and the bytes that a footprint lists -/

theorem mem_regsThrough {x r : Nibble} (h : r.toNat < x.toNat + 1) : r ∈ regsThrough x :=
  List.mem_map.2 ⟨r.toNat, List.mem_range.2 h, by simp⟩

theorem mem_flagResetRegs (x : Nibble) (s : State) : x ∈ flagResetRegs x s := by
  unfold flagResetRegs; split <;> simp

theorem VF_mem_flagResetRegs (x : Nibble) {s : State} (h : s.cfg.variant = .chip8) : 0xF ∈ flagResetRegs x s := by
  simp [flagResetRegs, h]

/-! ### Instructions -/

/-- The outcome is a next state, and in it everything outside the footprint is as before. -/
def StaysIn (c : MayChange) (s : State) (o : Host.Outcome State Fault Refusal) : Prop := ∃ t, o = .next t ∧ Frame c s t

namespace StaysIn

variable {c : MayChange} {s e : State}

theorem next (h : Frame c s e) : StaysIn c s (.next e) := ⟨e, rfl, h⟩

theorem guarded {bad : Bool} {cause : FaultCause} (hok : bad = false) (h : Frame c s e) :
    StaysIn c s (raiseIf bad cause s e) := ⟨e, raiseIf_of_ok hok cause s e, h⟩

/-- A bitwise instruction: the result into V[X], then the variant's clearing of VF (R163-R165). -/
theorem bitwise (x : Nibble) (v : Byte) : StaysIn { regs := flagResetRegs x s } s (.next (s.writeV x v).resetFlagQuirk) :=
  next ((Frame.refl.writeV (mem_flagResetRegs x s) v).resetFlagQuirk fun h => VF_mem_flagResetRegs x h)

/-- An ALU instruction that writes V[X] and then VF. -/
theorem resultThenFlag (x : Nibble) (v f : Byte) : StaysIn { regs := [x, 0xF] } s (.next ((s.writeV x v).writeVF f)) :=
  next ((Frame.refl.writeV (by simp) v).writeV (by simp) f)

theorem writesOne (x : Nibble) (v : Byte) : StaysIn { regs := [x] } s (.next (s.writeV x v)) :=
  next (Frame.refl.writeV (by simp) v)

theorem of_exec00EE (u : Nibble) (h : s.SP.val ≠ 0) : StaysIn { stack := true } s (Machine.exec00EE u s) := by
  rw [Machine.exec00EE, State.pop_of_pos (by omega)]
  exact next ((Frame.refl.setStack rfl _ _).setPc _)

theorem of_exec2NNN (nnn : Addr12) (h : s.SP.val ≠ 12) : StaysIn { stack := true } s (Machine.exec2NNN nnn s) := by
  rw [Machine.exec2NNN, State.push_of_lt _ (by omega)]
  exact next ((Frame.refl.setStack rfl _ _).setPc _)

theorem of_execFX0A (x : Nibble) : StaysIn { regs := [x], latch := true } s (Machine.execFX0A x s) := by
  refine next ?_
  split
  · exact Frame.refl.awaitRelease (by simp) rfl
  · exact Frame.refl.seekKey rfl

end StaysIn

/-- The condition of a row of R251's table does not hold when the row raises nothing. -/
theorem not_of_ite_eq_none {p : Prop} [Decidable p] {cause : FaultCause} (h : (if p then some cause else none) = none) :
    ¬ p := fun hp => by rw [if_pos hp] at h; cases h

/-- R251's condition on the single bytes is the bounds rule on the whole run (R55). -/
theorem outOfBounds_eq_false {s : State} {count : Nat} (h : ¬ ∃ k < count, 0xFFF < s.I.toNat + k) :
    s.outOfBounds count = false := by
  rw [Bool.eq_false_iff]
  intro hbad
  obtain ⟨hpos, htop⟩ := (State.outOfBounds_iff count s).1 hbad
  exact h ⟨count - 1, by omega, htop⟩

theorem keyIndexBad_eq_false {s : State} {x : Nibble} (h : ¬ 15 < (s.readV x).toNat) : s.keyIndexBad x = false :=
  decide_eq_false h

/-- An instruction whose fault condition does not hold completes within its footprint. -/
theorem exec_staysIn (i : Instr) (s : State) (h : faultOf i s = none) : StaysIn (footprint i s) s (exec i s) := by
  cases i with
  | op00E0 u => exact .next (Frame.refl.present rfl _)
  | op00EE u => exact .of_exec00EE u (not_of_ite_eq_none h)
  | op2NNN nnn => exact .of_exec2NNN nnn (not_of_ite_eq_none h)
  | op1NNN | opBNNN => exact .next (Frame.refl.setPc _)
  | op3XNN | op4XNN | op5XY0 | op9XY0 => exact .next (Frame.refl.skipIf _)
  | op6XNN | op7XNN | op8XY0 | opCXNN | opFX07 => exact .writesOne _ _
  | op8XY1 | op8XY2 | op8XY3 => exact .bitwise _ _
  | op8XY4 | op8XY6 | op8XYE => exact .resultThenFlag _ _ _
  | op8XY5 | op8XY7 => exact .next (Frame.refl.subtractInto (by simp [footprint]) (by simp [footprint]) _ _)
  | opANNN | opFX1E | opFX29 => exact .next (Frame.refl.setI rfl _)
  | opDXYN x y n =>
    exact .guarded (outOfBounds_eq_false (not_of_ite_eq_none h))
      ((Frame.refl.writeV (by simp [footprint]) _).present rfl _)
  | opEX9E | opEXA1 => exact .guarded (keyIndexBad_eq_false (not_of_ite_eq_none h)) (Frame.refl.skipIf _)
  | opFX0A x => exact .of_execFX0A x
  | opFX15 => exact .next (Frame.refl.setDT rfl _)
  | opFX18 => exact .next (Frame.refl.setST rfl _)
  | opFX33 x =>
    have hfit := not_of_ite_eq_none h
    exact .guarded (outOfBounds_eq_false fun ⟨k, hk, htop⟩ => hfit (by omega)) (Frame.refl.storeAtI rfl)
  | opFX55 x =>
    exact .guarded (outOfBounds_eq_false (not_of_ite_eq_none h))
      ((Frame.refl.storeAtI (by rw [State.length_regsUpTo]; rfl)).bumpI (fun hv => decide_eq_true hv) x)
  | opFX65 x =>
    exact .guarded (outOfBounds_eq_false (not_of_ite_eq_none h))
      ((Frame.refl.setV_loadRegs fun _ hr => mem_regsThrough hr).bumpI (fun hv => decide_eq_true hv) x)
  | nop => exact .next Frame.refl

/-- Settles O44: every instruction is a chain of operations that each stay in the footprint. -/
theorem instructionsStayInTheirFootprint : Obligations.InstructionsStayInTheirFootprint := exec_staysIn

end Sys2Proof.Machine
end

section
/-! PROOFS for 40_display.md: 00E0 (R100) and DXYN (R101-R103). A row of the opcode table is read off the encoder; the sprite's
picture depends on its anchor, I and drawn bytes alone, so a second drawing flips the same pixels back. -/

namespace Sys2Proof

open Machine

/-! ### Rows of the opcode table -/

/-- The decoder reads a word as the one well-formed instruction that encodes to it. -/
theorem decodeWord_eq_iff {w : Word} {i : Instr} (hwf : i.wellFormed = true) : decodeWord w = i ↔ encode i = w :=
  ⟨fun h => h ▸ (decodeWord_standsFor w).2, fun h => h ▸ decodeWord_encode hwf⟩

/-- A row decodes as `f` says when the words it admits are those that `f`'s instruction encodes back. -/
theorem rowDecodes_of_encode {mask pattern : Word} {f : Word → Instr} (hwf : ∀ w, (f w).wellFormed = true)
    (henc : ∀ w, encode (f w) = w ↔ w &&& mask = pattern) : RowDecodes mask pattern f := fun w =>
  (henc w).symm.trans (decodeWord_eq_iff (hwf w)).symm

theorem packXYN_fields_eq_iff (w : Word) (hi : Nibble) :
    packXYN hi (fieldX w) (fieldY w) (fieldN w) = w ↔ fieldHi w = hi :=
  ⟨fun h => by rw [← h, fieldHi_packXYN], fun h => by rw [← h, packXYN_fields]⟩

theorem packXNN_fieldX_eq_iff (w : Word) (hi : Nibble) (nn : Byte) :
    packXNN hi (fieldX w) nn = w ↔ fieldHi w = hi ∧ fieldNN w = nn := by
  constructor
  · intro h
    rw [← h, fieldHi_packXNN, fieldNN_packXNN]
    exact ⟨rfl, rfl⟩
  · rintro ⟨rfl, rfl⟩
    exact packXNN_fields w

/-- The row of 00E0 (R76). -/
theorem rowDecodes_00E0 : RowDecodes 0xF0FF 0x00E0 (fun w => .op00E0 (fieldX w)) :=
  rowDecodes_of_encode (fun _ => rfl) fun w => (packXNN_fieldX_eq_iff w 0x0 0xE0).trans (and_F0FF_eq_iff w 0x0 0xE0).symm

/-- The row of DXYN (R75). -/
theorem rowDecodes_DXYN : RowDecodes 0xF000 0xD000 (fun w => .opDXYN (fieldX w) (fieldY w) (fieldN w)) :=
  rowDecodes_of_encode (fun _ => rfl) fun w => (packXYN_fields_eq_iff w 0xD).trans (and_F000_eq_iff w 0xD).symm

end Sys2Proof

namespace Sys2Proof.Machine

/-- Settles O15: the blank display has no pixel on. -/
theorem clearDisplayTurnsAllPixelsOff : Obligations.ClearDisplayTurnsAllPixelsOff :=
  ⟨rowDecodes_00E0, fun _ s => ⟨s.present Display.blank, rfl, Display.pixel_blank, rfl, rfl, rfl, Frame.refl.present rfl _⟩⟩

/-! ### DXYN -/

/-- The state that DXYN leaves when it completes: the drawn display, and the collision in VF (R101). -/
def State.afterSprite (x y n : Nibble) (s : State) : State :=
  (s.writeVF (bool2bit (s.drawn x y n).collided)).present (s.drawn x y n).disp

section
variable {x y n : Nibble} {s : State}

theorem exec_opDXYN_of_ok (h : s.outOfBounds (s.visibleRows y n) = false) :
    exec (.opDXYN x y n) s = .next (s.afterSprite x y n) := raiseIf_of_ok h _ _ _

theorem exec_opDXYN_of_bad (h : s.outOfBounds (s.visibleRows y n) = true) :
    exec (.opDXYN x y n) s = .next (s.raise .memOutOfBounds) := raiseIf_of_bad h _ _ _

theorem afterSprite_pixel (px py : Nat) :
    (s.afterSprite x y n).disp.pixel px py = (s.disp.pixel px py ^^ spriteBit x y n s px py) := drawn_pixel x y n s px py

theorem afterSprite_VF : (s.afterSprite x y n).readV 0xF = bool2bit (s.drawn x y n).collided :=
  State.readV_writeV_self 0xF _ s

theorem afterSprite_VF_eq_one_iff : (s.afterSprite x y n).readV 0xF = 1 ↔ SpriteCollides x y n s := by
  rw [afterSprite_VF, ← drawn_collided]
  cases (s.drawn x y n).collided <;> decide

theorem afterSprite_VF_eq_zero_iff : (s.afterSprite x y n).readV 0xF = 0 ↔ ¬ SpriteCollides x y n s := by
  rw [afterSprite_VF, ← drawn_collided]
  cases (s.drawn x y n).collided <;> decide

theorem afterSprite_frame : Frame { regs := [0xF], display := true } s (s.afterSprite x y n) :=
  (Frame.refl.writeV (by simp) _).present rfl _

end

/-- Settles O16: the bounds rule on the drawn rows decides between the fault and the state that DXYN leaves. -/
theorem drawSpriteXorsAndDetectsCollision : Obligations.DrawSpriteXorsAndDetectsCollision := by
  refine ⟨rowDecodes_DXYN, fun x y n s => ⟨fun hbad => ?_,
    fun (hfit : s.visibleRows y n = 0 ∨ s.I.toNat + (s.visibleRows y n - 1) ≤ 0xFFF) => ?_⟩⟩
  · exact exec_opDXYN_of_bad ((State.outOfBounds_iff (s.visibleRows y n) s).2 hbad)
  · have hok : s.outOfBounds (s.visibleRows y n) = false := (State.outOfBounds_false_iff _ s).2 (by omega)
    exact ⟨s.afterSprite x y n, exec_opDXYN_of_ok hok, afterSprite_pixel, afterSprite_VF_eq_one_iff.2,
      afterSprite_VF_eq_zero_iff.2, rfl, rfl, rfl, afterSprite_frame⟩

/-! ### Drawing twice -/

section
variable {x y n : Nibble} {s s' : State}

theorem visibleRows_congr (hy : s'.readV y = s.readV y) : s'.visibleRows y n = s.visibleRows y n := by
  rw [State.visibleRows, State.visibleRows, State.anchorY, State.anchorY, hy]

/-- The picture of a sprite depends on its anchor, I and the drawn bytes alone (R103). -/
theorem spriteBit_congr (hx : s'.readV x = s.readV x) (hy : s'.readV y = s.readV y) (hI : s'.I = s.I)
    (hmem : ∀ r, r < s.visibleRows y n → s'.mem.read (s.I.toNat + r) = s.mem.read (s.I.toNat + r)) (px py : Nat) :
    spriteBit x y n s' px py = spriteBit x y n s px py := by
  have hax : s'.anchorX x = s.anchorX x := by rw [State.anchorX, State.anchorX, hx]
  have hay : s'.anchorY y = s.anchorY y := by rw [State.anchorY, State.anchorY, hy]
  rw [spriteBit, spriteBit, hax, hay, visibleRows_congr hy, hI, Bool.eq_iff_iff, Bool.and_eq_true, Bool.and_eq_true]
  refine and_congr_right fun hin => ?_
  obtain ⟨hlo, hhi, -⟩ := of_decide_eq_true hin
  rw [hmem (py - s.anchorY y) (by omega)]

section
variable (hdisp : s'.disp = (s.afterSprite x y n).disp) (hbit : ∀ px py, spriteBit x y n s' px py = spriteBit x y n s px py)
include hdisp hbit

/-- The second drawing flips the same pixels as the first (R102). -/
theorem afterSprite_afterSprite_disp : (s'.afterSprite x y n).disp = s.disp := by
  refine Display.ext_pixel fun px py _ _ => ?_
  rw [afterSprite_pixel, hdisp, afterSprite_pixel, hbit, Bool.xor_assoc, Bool.xor_self, Bool.xor_false]

/-- The second drawing meets on pixels where the first met off ones (R102). -/
theorem spriteCollides_afterSprite_iff :
    SpriteCollides x y n s' ↔ ∃ px py, spriteBit x y n s px py = true ∧ s.disp.pixel px py = false := by
  refine exists_congr fun px => exists_congr fun py => ?_
  rw [hbit, hdisp, afterSprite_pixel]
  refine and_congr_right fun hset => ?_
  rw [hset, Bool.xor_true, Bool.not_eq_true']

end

end

/-- Settles O17: the second drawing has the picture of the first, so it completes, flips the pixels back and collides where
they were off. -/
theorem drawingTwiceRestoresTheDisplay : Obligations.DrawingTwiceRestoresTheDisplay := by
  intro x y n s hfit
  have hok : s.outOfBounds (s.visibleRows y n) = false := (State.outOfBounds_false_iff _ s).2 hfit.symm
  refine ⟨s.afterSprite x y n, exec_opDXYN_of_ok hok, fun s' hdisp hx hy hI hmem => ?_⟩
  have hok' : s'.outOfBounds (s'.visibleRows y n) = false := by
    rw [visibleRows_congr hy, ← hok, State.outOfBounds, State.outOfBounds, hI]
  have hbit := spriteBit_congr hx hy hI hmem
  exact ⟨s'.afterSprite x y n, exec_opDXYN_of_ok hok', afterSprite_afterSprite_disp hdisp hbit,
    afterSprite_VF_eq_one_iff.trans (spriteCollides_afterSprite_iff hdisp hbit)⟩

end Sys2Proof.Machine
end

section
/-! PROOFS for 41_control_flow.md: the jumps (R121, R123), call and return (R120, R122), and nesting (R124). A run of calls
leaves the outermost return address at the cursor it started from; a run of returns ends at the entry of its last one. -/

namespace Sys2Proof

open Machine

/-! ### Rows of the opcode table -/

theorem packNNN_fieldNNN_eq_iff (w : Word) (hi : Nibble) : packNNN hi (fieldNNN w) = w ↔ fieldHi w = hi :=
  ⟨fun h => by rw [← h, fieldHi_packNNN], fun h => by rw [← h, packNNN_fields]⟩

/-- A row with a twelve-bit immediate is keyed on the high nibble alone (R75, R83). -/
theorem rowDecodes_NNN (hi : Nibble) {f : Addr12 → Instr} (hwf : ∀ nnn, (f nnn).wellFormed = true)
    (henc : ∀ nnn, encode (f nnn) = packNNN hi nnn) : RowDecodes 0xF000 (packXYN hi 0 0 0) (fun w => f (fieldNNN w)) := by
  refine rowDecodes_of_encode (fun w => hwf (fieldNNN w)) fun w => ?_
  rw [henc, packNNN_fieldNNN_eq_iff, and_F000_eq_iff]

/-- The row of 00EE (R76). -/
theorem rowDecodes_00EE : RowDecodes 0xF0FF 0x00EE (fun w => .op00EE (fieldX w)) :=
  rowDecodes_of_encode (fun _ => rfl) fun w => (packXNN_fieldX_eq_iff w 0x0 0xEE).trans (and_F0FF_eq_iff w 0x0 0xEE).symm

end Sys2Proof

namespace Sys2Proof.Machine

/-! ### Jumps -/

theorem toNat_addrOf (nnn : Addr12) : (addrOf nnn).toNat = nnn.toNat := by
  simp only [addrOf, BitVec.toNat_setWidth]; omega

/-- The sum of BNNN does not wrap (R123). -/
theorem toNat_zext16_add_addrOf (v : Byte) (nnn : Addr12) : (zext16 v + addrOf nnn).toNat = v.toNat + nnn.toNat := by
  simp only [zext16, BitVec.toNat_add, BitVec.toNat_setWidth, toNat_addrOf]; omega

/-- Settles O19: the jump is one write of pc. -/
theorem jumpGoesToItsTarget : Obligations.JumpGoesToItsTarget :=
  ⟨rowDecodes_NNN 0x1 (fun _ => rfl) (fun _ => rfl),
    fun nnn s => ⟨s.setPc (addrOf nnn), rfl, toNat_addrOf nnn, Frame.refl.setPc _⟩⟩

/-- Settles O21: the jump is one write of pc, and its sum fits 16 bits. -/
theorem indexedJumpAddsV0 : Obligations.IndexedJumpAddsV0 :=
  ⟨rowDecodes_NNN 0xB (fun _ => rfl) (fun _ => rfl),
    fun nnn s => ⟨s.setPc (zext16 (s.readV 0) + addrOf nnn), rfl, toNat_zext16_add_addrOf _ nnn, Frame.refl.setPc _⟩⟩

/-! ### Call and return -/

section
variable {s : State}

theorem exec_op00EE_of_empty (u : Nibble) (h : s.SP.val = 0) : exec (.op00EE u) s = .next (s.raise .stackUnderflow) := by
  change exec00EE u s = _
  rw [exec00EE, (State.pop_eq_none_iff s).2 h]

theorem exec_op2NNN_of_full (nnn : Addr12) (h : s.SP.val = 12) :
    exec (.op2NNN nnn) s = .next (s.raise .stackOverflow) := by
  change exec2NNN nnn s = _
  rw [exec2NNN, (State.push_eq_none_iff s.pc s).2 h]

/-- A return from a stack that holds an entry (R120). -/
theorem exec_op00EE_of_pos (u : Nibble) (h : 0 < s.SP.val) :
    ∃ t, exec (.op00EE u) s = .next t ∧ t.SP.val = s.SP.val - 1 ∧ t.pc = s.stack[s.SP.val - 1] ∧ t.stack = s.stack ∧
      Frame { stack := true } s t := by
  change ∃ t, exec00EE u s = .next t ∧ _
  rw [exec00EE, State.pop_of_pos h]
  exact ⟨_, rfl, rfl, rfl, rfl, (Frame.refl.setStack rfl _ _).setPc _⟩

/-- A call with room on the stack (R122). -/
theorem exec_op2NNN_of_lt (nnn : Addr12) (h : s.SP.val < 12) :
    ∃ t, exec (.op2NNN nnn) s = .next t ∧ t.SP.val = s.SP.val + 1 ∧ t.stack[s.SP.val] = s.pc ∧
      (∀ k (hk : k < 12), k ≠ s.SP.val → t.stack[k] = s.stack[k]) ∧ t.pc.toNat = nnn.toNat ∧
      Frame { stack := true } s t := by
  change ∃ t, exec2NNN nnn s = .next t ∧ _
  rw [exec2NNN, State.push_of_lt _ h]
  exact ⟨_, rfl, rfl, Vector.getElem_set_self h, fun k hk hne => Vector.getElem_set_ne h hk hne.symm, toNat_addrOf nnn,
    (Frame.refl.setStack rfl _ _).setPc _⟩

end

/-- Settles O18: an empty stack faults, and any other is popped. -/
theorem returnPopsTheStack : Obligations.ReturnPopsTheStack :=
  ⟨rowDecodes_00EE, fun u _ => ⟨exec_op00EE_of_empty u, exec_op00EE_of_pos u⟩⟩

/-- Settles O20: a full stack faults, and any other takes the return address. -/
theorem callPushesTheReturnAddress : Obligations.CallPushesTheReturnAddress :=
  ⟨rowDecodes_NNN 0x2 (fun _ => rfl) (fun _ => rfl), fun nnn _ => ⟨exec_op2NNN_of_full nnn, exec_op2NNN_of_lt nnn⟩⟩

/-! ### Sequences of instructions -/

section
variable {i : Instr} {is js : List Instr} {s t : State}

theorem execAll_cons_of_next (h : exec i s.advance = .next t) : execAll (i :: is) s = execAll is t := by
  rw [execAll, h]

theorem execAll_append_of_next (h : execAll is s = .next t) : execAll (is ++ js) s = execAll js t := by
  induction is generalizing s with
  | nil => cases h; rfl
  | cons i is ih =>
    rw [execAll] at h
    split at h
    · next r hi => rw [List.cons_append, execAll_cons_of_next hi, ih h]
    · cases h
    · cases h

end

/-! ### Nested calls (R124) -/

/-- A run of calls that the stack has room for: the entries below the cursor are kept, and the outermost return address stands
at it. -/
theorem execAll_calls (targets : List Addr12) {s : State} (h : s.SP.val + targets.length ≤ 12) :
    ∃ t, execAll (targets.map .op2NNN) s = .next t ∧ t.SP.val = s.SP.val + targets.length ∧
      (∀ k (hk : k < 12), k < s.SP.val → t.stack[k] = s.stack[k]) ∧
      (∀ hs : s.SP.val < 12, targets ≠ [] → t.stack[s.SP.val] = s.pc + 2) ∧ Frame { stack := true } s t := by
  induction targets generalizing s with
  | nil => exact ⟨s, rfl, rfl, fun _ _ _ => rfl, fun _ hne => absurd rfl hne, Frame.refl⟩
  | cons nnn targets ih =>
    rw [List.length_cons] at h
    have hroom : s.advance.SP.val < 12 := show s.SP.val < 12 by omega
    obtain ⟨t, hcall, hSP, hentry, hbelow, -, hframe⟩ := exec_op2NNN_of_lt nnn hroom
    rw [State.advance_eq, State.setPc_SP] at hSP
    obtain ⟨t', hcalls, hSP', hbelow', -, hframe'⟩ := ih (s := t) (by omega)
    refine ⟨t', (execAll_cons_of_next hcall).trans hcalls, by rw [List.length_cons]; omega, fun k hk hlt => ?_,
      fun hs _ => ?_, ((Frame.refl.setPc _).trans hframe).trans hframe'⟩
    · exact (hbelow' k hk (by omega)).trans (hbelow k hk hlt.ne)
    · exact (hbelow' s.SP.val hs (by omega)).trans hentry

/-- A run of returns that the stack has entries for keeps every entry and ends at that of the last one. -/
theorem execAll_returns (us : List Nibble) {s : State} (h : us.length ≤ s.SP.val) :
    ∃ t, execAll (us.map .op00EE) s = .next t ∧ t.SP.val + us.length = s.SP.val ∧ t.stack = s.stack ∧
      (∀ hk : t.SP.val < 12, us ≠ [] → t.pc = s.stack[t.SP.val]) ∧ Frame { stack := true } s t := by
  induction us using List.reverseRecOn with
  | nil => exact ⟨s, rfl, rfl, rfl, fun _ hne => absurd rfl hne, Frame.refl⟩
  | append_singleton us u ih =>
    rw [List.length_append, List.length_singleton] at h
    obtain ⟨t, hrets, hSP, hstack, -, hframe⟩ := ih (by omega)
    have hpos : 0 < t.advance.SP.val := show 0 < t.SP.val by omega
    obtain ⟨t', hret, hSP', hpc', hstack', hframe'⟩ := exec_op00EE_of_pos u hpos
    rw [State.advance_eq, State.setPc_SP] at hSP'
    refine ⟨t', ?_, ?_, hstack'.trans hstack, fun hk _ => ?_, (hframe.setPc _).trans hframe'⟩
    · rw [List.map_append, execAll_append_of_next hrets]
      exact execAll_cons_of_next hret
    · rw [List.length_append, List.length_singleton]; omega
    · rw [hpc']
      simp only [hSP', State.advance_eq, State.setPc_SP, State.setPc_stack, hstack]

/-- Settles O22: the calls put the outermost return address at the cursor they start from, where the returns end; calls that
fill the twelve entries leave no room for one more. -/
theorem nestedCallsReturnInOrder : Obligations.NestedCallsReturnInOrder := by
  refine ⟨fun s targets us hne hroom hlen => ?_, fun s targets nnn hfull => ?_⟩
  · obtain ⟨t, hcalls, hSP, hbelow, hentry, hframe⟩ := execAll_calls targets hroom
    obtain ⟨t', hrets, hSP', hstack', hpc', hframe'⟩ := execAll_returns us (s := t) (by omega)
    have hback : t'.SP = s.SP := Fin.ext (by omega)
    have hpos : 0 < targets.length := List.length_pos_of_ne_nil hne
    have hus : us ≠ [] := List.ne_nil_of_length_pos (by omega)
    simp only [hback] at hpc'
    refine ⟨t', (execAll_append_of_next hcalls).trans hrets, ?_, hback, fun k hk hlt => ?_, hframe.trans hframe'⟩
    · exact (hpc' (by omega) hus).trans (hentry (by omega) hne)
    · simp only [hstack', hbelow k hk hlt]
  · obtain ⟨t, hcalls, hSP, -⟩ := execAll_calls targets hfull.le
    exact ⟨t, hcalls, exec_op2NNN_of_full nnn (hSP.trans hfull)⟩

end Sys2Proof.Machine
end

section
/-! PROOFS for 42_conditional_skips.md: the skips on a comparison (R140-R143) and on a key (R144, R145). Each is one
conditional advance of pc; the two keypad skips guard it by the range of the key index. -/

namespace Sys2Proof

open Machine

/-! ### Rows of the opcode table -/

theorem packXNN_fields_eq_iff (w : Word) (hi : Nibble) : packXNN hi (fieldX w) (fieldNN w) = w ↔ fieldHi w = hi :=
  (packXNN_fieldX_eq_iff w hi (fieldNN w)).trans (and_iff_left rfl)

theorem packXYN_fieldX_fieldY_eq_iff (w : Word) (hi n : Nibble) :
    packXYN hi (fieldX w) (fieldY w) n = w ↔ fieldHi w = hi ∧ fieldN w = n := by
  constructor
  · intro h
    rw [← h, fieldHi_packXYN, fieldN_packXYN]
    exact ⟨rfl, rfl⟩
  · rintro ⟨rfl, rfl⟩
    exact packXYN_fields w

/-- A row with a register and an eight-bit immediate is keyed on the high nibble alone (R75). -/
theorem rowDecodes_XNN (hi : Nibble) {f : Nibble → Byte → Instr} (hwf : ∀ x nn, (f x nn).wellFormed = true)
    (henc : ∀ x nn, encode (f x nn) = packXNN hi x nn) :
    RowDecodes 0xF000 (packXYN hi 0 0 0) (fun w => f (fieldX w) (fieldNN w)) := by
  refine rowDecodes_of_encode (fun w => hwf (fieldX w) (fieldNN w)) fun w => ?_
  rw [henc, packXNN_fields_eq_iff, and_F000_eq_iff]

/-- A row with two registers is keyed on the high nibble and N (R77-R79). -/
theorem rowDecodes_XY (hi n : Nibble) {f : Nibble → Nibble → Instr} (hwf : ∀ x y, (f x y).wellFormed = true)
    (henc : ∀ x y, encode (f x y) = packXYN hi x y n) :
    RowDecodes 0xF00F (packXYN hi 0 0 n) (fun w => f (fieldX w) (fieldY w)) := by
  refine rowDecodes_of_encode (fun w => hwf (fieldX w) (fieldY w)) fun w => ?_
  rw [henc, packXYN_fieldX_fieldY_eq_iff, and_F00F_eq_iff]

/-- A row with one register is keyed on the high nibble and NN (R76, R80, R81). -/
theorem rowDecodes_X (hi : Nibble) (nn : Byte) {f : Nibble → Instr} (hwf : ∀ x, (f x).wellFormed = true)
    (henc : ∀ x, encode (f x) = packXNN hi x nn) : RowDecodes 0xF0FF (packXNN hi 0 nn) (fun w => f (fieldX w)) := by
  refine rowDecodes_of_encode (fun w => hwf (fieldX w)) fun w => ?_
  rw [henc, packXNN_fieldX_eq_iff, and_F0FF_eq_iff]

/-- In the families that compare two registers, a word with N other than 0 is in the no-op space (R77, R79, R87). -/
theorem inNoOpSpace_of_fieldN_ne_zero {w : Word} (hhi : fieldHi w = 5 ∨ fieldHi w = 9) (hn : fieldN w ≠ 0) :
    inNoOpSpace w = true := by
  obtain h | h := hhi
  · simpa [inNoOpSpace_eq, h] using hn
  · simpa [inNoOpSpace_eq, h] using hn

end Sys2Proof

namespace Sys2Proof.Machine

/-! ### Skips on a comparison -/

/-- An instruction that is one conditional advance has the effect of a skip under the condition its test decides. -/
theorem skipEffect_of_skipIf {c : State → Prop} {i : Instr} {test : State → Bool}
    (hexec : ∀ s, exec i s = .next (s.skipIf (test s))) (htest : ∀ s, test s = true ↔ c s) : SkipEffect c i := by
  intro s
  refine ⟨s.skipIf (test s), hexec s, fun hc => ?_, fun hc => ?_, Frame.refl.skipIf _⟩
  · rw [State.skipIf_pc, if_pos ((htest s).2 hc)]
  · rw [State.skipIf_pc, if_neg (hc ∘ (htest s).1)]

/-- Settles O23: both rows are keyed on the high nibble, and the two tests are the comparison of V[X] with NN and its
negation. -/
theorem skipsCompareWithTheImmediate : Obligations.SkipsCompareWithTheImmediate :=
  ⟨rowDecodes_XNN 0x3 (fun _ _ => rfl) (fun _ _ => rfl), rowDecodes_XNN 0x4 (fun _ _ => rfl) (fun _ _ => rfl),
    fun _ _ => ⟨skipEffect_of_skipIf (fun _ => rfl) fun _ => beq_iff_eq,
      skipEffect_of_skipIf (fun _ => rfl) fun _ => bne_iff_ne⟩⟩

/-- Settles O24: both rows are keyed on N = 0, any other N is the no-op's, and the two tests are the comparison of V[X]
with V[Y] and its negation. -/
theorem skipsCompareTwoRegisters : Obligations.SkipsCompareTwoRegisters :=
  ⟨rowDecodes_XY 0x5 0 (fun _ _ => rfl) (fun _ _ => rfl), rowDecodes_XY 0x9 0 (fun _ _ => rfl) (fun _ _ => rfl),
    fun w hhi hn => (decodeWord_eq_nop_iff w).2 (inNoOpSpace_of_fieldN_ne_zero hhi hn),
    fun _ _ => ⟨skipEffect_of_skipIf (fun _ => rfl) fun _ => beq_iff_eq,
      skipEffect_of_skipIf (fun _ => rfl) fun _ => bne_iff_ne⟩⟩

/-! ### Skips on a key -/

section
variable {x : Nibble} {s : State} {i : Instr} {test : Bool}
  (hexec : exec i s = raiseIf (s.keyIndexBad x) .keyIndexOutOfRange s (s.skipIf test))
include hexec

/-- A skip guarded by the key index faults when the index is above 15 (R144, R145). -/
theorem exec_keySkip_of_gt (h : 15 < (s.readV x).toNat) : exec i s = .next (s.raise .keyIndexOutOfRange) := by
  have hbad : s.keyIndexBad x = true := decide_eq_true h
  rw [hexec, raiseIf_of_bad hbad]

/-- A skip guarded by the key index completes when the index is a key's (R144, R145). -/
theorem exec_keySkip_of_le {p : Prop} [Decidable p] (htest : test = true ↔ p) (h : (s.readV x).toNat ≤ 15) :
    ∃ t, exec i s = .next t ∧ t.pc = (if p then s.pc + 2 else s.pc) ∧ Frame {} s t := by
  have hok : s.keyIndexBad x = false := keyIndexBad_eq_false h.not_gt
  refine ⟨s.skipIf test, by rw [hexec, raiseIf_of_ok hok], ?_, Frame.refl.skipIf _⟩
  rw [State.skipIf_pc, if_congr htest rfl rfl]

end

/-- Settles O25: both rows are keyed on NN, the range of the index decides between the fault and the skip, and the two
tests are the sampled key and its negation. -/
theorem skipsTestTheKeypad : Obligations.SkipsTestTheKeypad :=
  ⟨rowDecodes_X 0xE 0x9E (fun _ => rfl) (fun _ => rfl), rowDecodes_X 0xE 0xA1 (fun _ => rfl) (fun _ => rfl), fun _ _ =>
    ⟨fun hbad => ⟨exec_keySkip_of_gt rfl hbad, exec_keySkip_of_gt rfl hbad⟩, fun hok =>
      ⟨exec_keySkip_of_le rfl Iff.rfl hok, exec_keySkip_of_le rfl (Bool.not_eq_true' _).to_iff hok⟩⟩⟩

end Sys2Proof.Machine
end

section
/-! PROOFS for 43_alu.md: the loads (R160-R162), the bitwise instructions with the variant's flag reset (R163-R165), sum,
differences and shifts with their flag (R166-R170), and CXNN (R171). The instructions fall into four shapes: one register
write; a result and then a flag; a flag and then a difference; a result and then the flag reset. Each shape's effect is said
once. -/

namespace Sys2Proof.Machine

/-! ### Flags and bytes as numbers -/

theorem toNat_bool2bit (c : Bool) : (bool2bit c).toNat = c.toNat := by cases c <;> rfl

theorem carryOut_eq_ite (a b : Byte) : carryOut a b = if 255 < a.toNat + b.toNat then 1 else 0 := by
  simp only [carryOut, bool2bit, decide_eq_true_eq]

theorem toNat_noBorrow (a b : Byte) : (noBorrow a b).toNat = if b.toNat ≤ a.toNat then 1 else 0 := by
  rw [noBorrow, toNat_bool2bit, Bool.toNat, Bool.cond_decide]

/-- The least bit of a byte is its remainder by 2. -/
theorem toNat_shiftedOutRight (v : Byte) : (shiftedOutRight v).toNat = v.toNat % 2 := by
  rw [shiftedOutRight, toNat_bool2bit, BitVec.getLsbD, Nat.toNat_testBit, Nat.pow_zero, Nat.div_one]

/-- The top bit of a byte is its quotient by 128. -/
theorem toNat_shiftedOutLeft (v : Byte) : (shiftedOutLeft v).toNat = v.toNat / 128 := by
  have hv := v.isLt
  rw [shiftedOutLeft, toNat_bool2bit, BitVec.getLsbD, Nat.toNat_testBit]
  omega

/-- A difference of bytes is the integer difference modulo 256 (R172). -/
theorem toNat_sub_eq_emod (a b : Byte) : ((a - b).toNat : Int) = ((a.toNat : Int) - b.toNat) % 256 := by
  have hb := b.isLt
  rw [BitVec.toNat_sub]
  omega

theorem State.toNat_shiftSource (x y : Nibble) (s : State) :
    (s.shiftSource x y).toNat = if s.cfg.variant = .chip8 then (s.readV y).toNat else (s.readV x).toNat := by
  unfold State.shiftSource
  split
  · next hv => rw [if_pos hv]
  · next hv => rw [if_neg (by simp [hv])]

/-! ### A flag, then a difference (R167, R169) -/

/-- The state that the flag write of a difference leaves, from which its operands are read (R167, R169). -/
def State.withNoBorrow (a b : Nibble) (s : State) : State := s.writeVF (noBorrow (s.readV a) (s.readV b))

section
variable {x : Nibble} (a b : Nibble) (s : State)

theorem toNat_readV_withNoBorrow_VF :
    ((s.withNoBorrow a b).readV 0xF).toNat = if (s.readV b).toNat ≤ (s.readV a).toNat then 1 else 0 := by
  rw [State.withNoBorrow, State.writeVF_eq, State.readV_writeV_self, toNat_noBorrow]

theorem readV_withNoBorrow_of_ne (h : x ≠ 0xF) : (s.withNoBorrow a b).readV x = s.readV x :=
  State.readV_writeV_ne h _ s

/-- The destination of a difference, its operands as they stand after the flag write. -/
theorem readV_subtractInto_self (x : Nibble) :
    (s.subtractInto x a b).readV x = (s.withNoBorrow a b).readV a - (s.withNoBorrow a b).readV b :=
  State.readV_writeV_self x _ _

/-- The flag of a difference stays unless VF is the destination. -/
theorem toNat_readV_subtractInto_VF (h : x ≠ 0xF) :
    ((s.subtractInto x a b).readV 0xF).toNat = if (s.readV b).toNat ≤ (s.readV a).toNat then 1 else 0 :=
  (congrArg BitVec.toNat (State.readV_writeV_ne h.symm _ _)).trans (toNat_readV_withNoBorrow_VF a b s)

end

section
variable {x a b : Nibble} {s : State}

/-- Neither operand is VF. -/
theorem toNat_readV_subtractInto_of_ne (ha : a ≠ 0xF) (hb : b ≠ 0xF) :
    (((s.subtractInto x a b).readV x).toNat : Int) = (((s.readV a).toNat : Int) - (s.readV b).toNat) % 256 := by
  rw [readV_subtractInto_self, toNat_sub_eq_emod, readV_withNoBorrow_of_ne a b s ha, readV_withNoBorrow_of_ne a b s hb]

/-- The minuend is VF, so the flag stands in its place. -/
theorem toNat_readV_subtractInto_of_minuend_VF (hb : b ≠ 0xF) :
    (((s.subtractInto x 0xF b).readV x).toNat : Int) =
      (((if (s.readV b).toNat ≤ (s.readV 0xF).toNat then 1 else 0 : Nat) : Int) - (s.readV b).toNat) % 256 := by
  rw [readV_subtractInto_self, toNat_sub_eq_emod, toNat_readV_withNoBorrow_VF, readV_withNoBorrow_of_ne 0xF b s hb]

/-- The subtrahend is VF, so the flag stands in its place. -/
theorem toNat_readV_subtractInto_of_subtrahend_VF (ha : a ≠ 0xF) :
    (((s.subtractInto x a 0xF).readV x).toNat : Int) =
      (((s.readV a).toNat : Int) - (if (s.readV 0xF).toNat ≤ (s.readV a).toNat then 1 else 0 : Nat)) % 256 := by
  rw [readV_subtractInto_self, toNat_sub_eq_emod, toNat_readV_withNoBorrow_VF, readV_withNoBorrow_of_ne a 0xF s ha]

theorem readV_subtractInto_same : (s.subtractInto x a a).readV x = 0 := by
  rw [readV_subtractInto_self, BitVec.sub_self]
  rfl

end

/-- Settles O29: X is the destination and the minuend, Y the subtrahend; the flag stands in place of whichever is F. -/
theorem subtractSetsNoBorrow : Obligations.SubtractSetsNoBorrow := by
  refine ⟨rowDecodes_XY 0x8 0x5 (fun _ _ => rfl) (fun _ _ => rfl), fun x y s =>
    ⟨s.subtractInto x x y, rfl, ?_, ?_, ?_, ?_, rfl, Frame.refl.subtractInto (by simp) (by simp) x y⟩⟩
  · exact fun hx hy => ⟨toNat_readV_subtractInto_of_ne hx hy, toNat_readV_subtractInto_VF x y s hx⟩
  · rintro rfl hy
    exact toNat_readV_subtractInto_of_minuend_VF hy
  · rintro hx rfl
    exact ⟨toNat_readV_subtractInto_of_subtrahend_VF hx, toNat_readV_subtractInto_VF x 0xF s hx⟩
  · rintro rfl rfl
    exact readV_subtractInto_same

/-- Settles O30: X is the destination and the subtrahend, Y the minuend; the flag stands in place of whichever is F. -/
theorem reverseSubtractSetsNoBorrow : Obligations.ReverseSubtractSetsNoBorrow := by
  refine ⟨rowDecodes_XY 0x8 0x7 (fun _ _ => rfl) (fun _ _ => rfl), fun x y s =>
    ⟨s.subtractInto x y x, rfl, ?_, ?_, ?_, ?_, rfl, Frame.refl.subtractInto (by simp) (by simp) y x⟩⟩
  · exact fun hx hy => ⟨toNat_readV_subtractInto_of_ne hy hx, toNat_readV_subtractInto_VF y x s hx⟩
  · rintro rfl hy
    exact toNat_readV_subtractInto_of_subtrahend_VF hy
  · rintro hx rfl
    exact ⟨toNat_readV_subtractInto_of_minuend_VF hx, toNat_readV_subtractInto_VF 0xF x s hx⟩
  · rintro rfl rfl
    exact readV_subtractInto_same

/-! ### A result, then a flag (R166, R168, R170) -/

/-- An instruction that writes V[X] and then VF leaves the flag in VF, and the result unless X is F. -/
theorem exec_resultThenFlag {i : Instr} {s : State} {x : Nibble} {v f : Byte}
    (hexec : exec i s = .next ((s.writeV x v).writeVF f)) :
    ∃ t, exec i s = .next t ∧ t.readV 0xF = f ∧ (x ≠ 0xF → t.readV x = v) ∧ t.pc = s.pc ∧
      Frame { regs := [x, 0xF] } s t := by
  refine ⟨_, hexec, State.readV_writeV_self 0xF f _, fun hx => ?_, rfl,
    (Frame.refl.writeV (by simp) v).writeV (by simp) f⟩
  rw [State.writeVF_eq, State.readV_writeV_ne hx, State.readV_writeV_self]

/-- Settles O31: the shift right by one is the half, and its flag the remainder. -/
theorem shiftRightMovesOutBitZero : Obligations.ShiftRightMovesOutBitZero := by
  refine ⟨rowDecodes_XY 0x8 0x6 (fun _ _ => rfl) (fun _ _ => rfl), fun x y s => ?_⟩
  obtain ⟨t, hexec, hflag, hresult, hpc, hframe⟩ := exec_resultThenFlag (i := .op8XY6 x y) (s := s) rfl
  rw [← State.toNat_shiftSource]
  refine ⟨t, hexec, by rw [hflag, toNat_shiftedOutRight], fun hx => ?_, hpc, hframe⟩
  rw [hresult hx, BitVec.toNat_ushiftRight, Nat.shiftRight_one]

/-- Settles O32: the shift left by one is the double modulo 256, and its flag the quotient by 128. -/
theorem shiftLeftMovesOutBitSeven : Obligations.ShiftLeftMovesOutBitSeven := by
  refine ⟨rowDecodes_XY 0x8 0xE (fun _ _ => rfl) (fun _ _ => rfl), fun x y s => ?_⟩
  obtain ⟨t, hexec, hflag, hresult, hpc, hframe⟩ := exec_resultThenFlag (i := .op8XYE x y) (s := s) rfl
  rw [← State.toNat_shiftSource]
  refine ⟨t, hexec, by rw [hflag, toNat_shiftedOutLeft], fun hx => ?_, hpc, hframe⟩
  rw [hresult hx, BitVec.toNat_shiftLeft, Nat.shiftLeft_eq]

/-- Settles O28: the sum of the model's bytes is the sum modulo 256, and its flag the carry. -/
theorem addSetsCarry : Obligations.AddSetsCarry := by
  refine ⟨rowDecodes_XY 0x8 0x4 (fun _ _ => rfl) (fun _ _ => rfl), fun x y s => ?_⟩
  obtain ⟨t, hexec, hflag, hresult, hpc, hframe⟩ := exec_resultThenFlag (i := .op8XY4 x y) (s := s) rfl
  refine ⟨t, hexec, by rw [hflag, carryOut_eq_ite], fun hx => ?_, hpc, hframe⟩
  rw [hresult hx, BitVec.toNat_add]

/-! ### One register write (R160-R162, R171) -/

/-- An instruction that is one register write leaves the value there and nothing else changed. -/
theorem exec_writesOne {i : Instr} {s : State} {x : Nibble} {v : Byte} (hexec : exec i s = .next (s.writeV x v)) :
    ∃ t, exec i s = .next t ∧ t.readV x = v ∧ t.pc = s.pc ∧ Frame { regs := [x] } s t :=
  ⟨_, hexec, State.readV_writeV_self x v s, rfl, Frame.refl.writeV (by simp) v⟩

/-- Settles O26: each of the three is one register write. -/
theorem loadsAndImmediateAdd : Obligations.LoadsAndImmediateAdd := by
  refine ⟨rowDecodes_XNN 0x6 (fun _ _ => rfl) (fun _ _ => rfl), rowDecodes_XNN 0x7 (fun _ _ => rfl) (fun _ _ => rfl),
    rowDecodes_XY 0x8 0x0 (fun _ _ => rfl) (fun _ _ => rfl), fun x nn s => ⟨exec_writesOne rfl, ?_⟩,
    fun _ _ _ => exec_writesOne rfl⟩
  obtain ⟨t, hexec, hresult, hpc, hframe⟩ := exec_writesOne (i := .op7XNN x nn) (s := s) rfl
  exact ⟨t, hexec, by rw [hresult, BitVec.toNat_add], hpc, hframe⟩

/-- Settles O33: CXNN is one register write, and the step of a request that carries the byte samples it before executing. -/
theorem randomByteIsMasked : Obligations.RandomByteIsMasked := by
  refine ⟨rowDecodes_XNN 0xC (fun _ _ => rfl) (fun _ _ => rfl), fun _ _ _ => exec_writesOne rfl,
    fun x nn rnd key rest s hin hrun hpc hdec => ?_⟩
  rw [step_running_of_ok hin hrun hpc, hdec]
  obtain ⟨t, hexec, hresult, -⟩ := exec_writesOne (i := .opCXNN x nn) rfl
  exact ⟨t, hexec, hresult⟩

/-! ### A result, then the variant's flag reset (R163-R165) -/

section
variable {s : State}

theorem readV_resetFlagQuirk_VF_of_chip8 (h : s.cfg.variant = .chip8) : s.resetFlagQuirk.readV 0xF = 0 := by
  rw [State.resetFlagQuirk, h]
  exact State.readV_writeV_self 0xF 0 s

/-- The flag reset reaches VF alone, and on SCHIP not even VF. -/
theorem readV_resetFlagQuirk_of_schip_or_ne {r : Nibble} (h : s.cfg.variant = .schip ∨ r ≠ 0xF) :
    s.resetFlagQuirk.readV r = s.readV r := by
  unfold State.resetFlagQuirk
  split
  · next hv =>
    have hr : r ≠ 0xF := h.resolve_left (by simp [hv])
    exact State.readV_writeV_ne hr 0 s
  · rfl

end

/-- An instruction that writes V[X] and then resets the flag has the effect of a bitwise instruction. -/
theorem bitwiseEffect_of_exec {f : Byte → Byte → Byte} {i : Nibble → Nibble → Instr}
    (hexec : ∀ x y s, exec (i x y) s = .next (s.writeV x (f (s.readV x) (s.readV y))).resetFlagQuirk) :
    BitwiseEffect f i := by
  intro x y s
  refine ⟨_, hexec x y s, fun hv => readV_resetFlagQuirk_VF_of_chip8 hv, fun h => ?_, State.resetFlagQuirk_pc _,
    (Frame.refl.writeV (mem_flagResetRegs x s) _).resetFlagQuirk fun hv => VF_mem_flagResetRegs x hv⟩
  exact (readV_resetFlagQuirk_of_schip_or_ne (s := s.writeV x _) h).trans (State.readV_writeV_self x _ s)

/-- Settles O27: each of the three is its operation on the registers, then the flag reset. -/
theorem bitwiseOpsAndFlagReset : Obligations.BitwiseOpsAndFlagReset :=
  ⟨rowDecodes_XY 0x8 0x1 (fun _ _ => rfl) (fun _ _ => rfl), rowDecodes_XY 0x8 0x2 (fun _ _ => rfl) (fun _ _ => rfl),
    rowDecodes_XY 0x8 0x3 (fun _ _ => rfl) (fun _ _ => rfl), bitwiseEffect_of_exec fun _ _ _ => rfl,
    bitwiseEffect_of_exec fun _ _ _ => rfl, bitwiseEffect_of_exec fun _ _ _ => rfl⟩

end Sys2Proof.Machine
end

section
/-! PROOFS for 44_index_and_memory.md: I (R200-R202), the decimal digits (R203), and the block transfers between memory and
registers (R204, R205). A transfer faults or completes by the bounds rule on its last byte; where it completes, it is one store
or one load, and then the variant's increment of I. -/

namespace Sys2Proof.Machine

/-! ### One write of I -/

theorem toNat_zext16 (v : Byte) : (zext16 v).toNat = v.toNat := by
  simp only [zext16, BitVec.toNat_setWidth]; omega

/-- The product of FX29 does not wrap (R202). -/
theorem toNat_zext16_mul_five (v : Byte) : (zext16 v * 5).toNat = v.toNat * 5 := by
  have hfive : (5 : Word).toNat = 5 := rfl
  rw [BitVec.toNat_mul, toNat_zext16, hfive]; omega

/-- An instruction that is one write of I leaves the value there and nothing else changed. -/
theorem exec_setsI {i : Instr} {s : State} {v : Word} (hexec : exec i s = .next (s.setI v)) :
    ∃ t, exec i s = .next t ∧ t.I.toNat = v.toNat ∧ t.pc = s.pc ∧ Frame { index := true } s t :=
  ⟨s.setI v, hexec, rfl, rfl, Frame.refl.setI rfl v⟩

/-- Settles O34: each of the three is one write of I; the sum is taken modulo 2^16, and the product fits 16 bits. -/
theorem indexLoadsAndAdds : Obligations.IndexLoadsAndAdds := by
  refine ⟨rowDecodes_NNN 0xA (fun _ => rfl) (fun _ => rfl), rowDecodes_X 0xF 0x1E (fun _ => rfl) (fun _ => rfl),
    rowDecodes_X 0xF 0x29 (fun _ => rfl) (fun _ => rfl), fun nnn s => ?_, fun x s => ⟨?_, ?_⟩⟩
  · rw [← toNat_addrOf nnn]
    exact exec_setsI rfl
  · rw [← toNat_zext16 (s.readV x), ← BitVec.toNat_add]
    exact exec_setsI rfl
  · rw [← toNat_zext16_mul_five]
    exact exec_setsI rfl

/-! ### An access from I up, guarded by the bounds rule (R55) -/

section
variable {i : Instr} {s e : State} {n : Nat}
  (hexec : exec i s = raiseIf (s.outOfBounds (n + 1)) .memOutOfBounds s e)
include hexec

/-- An access whose last byte lies above 0xFFF faults. -/
theorem exec_access_of_gt (h : 0xFFF < s.I.toNat + n) : exec i s = .next (s.raise .memOutOfBounds) := by
  have hbad : s.outOfBounds (n + 1) = true := (State.outOfBounds_iff _ s).2 ⟨n.succ_pos, h⟩
  rw [hexec, raiseIf_of_bad hbad]

/-- An access whose last byte lies in memory completes. -/
theorem exec_access_of_le (h : s.I.toNat + n ≤ 0xFFF) : exec i s = .next e := by
  have hok : s.outOfBounds (n + 1) = false := (State.outOfBounds_false_iff _ s).2 (.inl (Nat.succ_le_succ h))
  rw [hexec, raiseIf_of_ok hok]

end

/-! ### A store from I up, read back -/

/-- Byte `k` of a run stored from I up, inside the address space, is its `k`-th byte. -/
theorem read_storeAtI {s : State} {l : List Byte} {k : Nat} (hwf : s.mem.wf = true)
    (hfit : s.I.toNat + l.length ≤ 0x1000) (hk : k < l.length) :
    (s.storeAtI l).mem.read (s.I.toNat + k) = l.getD k 0 := by
  have hin : s.I.toNat ≤ s.I.toNat + k ∧ s.I.toNat + k < s.I.toNat + l.length := by omega
  rw [State.storeAtI_eq, State.setMem_mem, Memory.read_storeBytes hwf hfit, if_pos hin, Nat.add_sub_cancel_left]

/-- Settles O35: the three bytes stored from I up are the digits, hundreds first. -/
theorem bcdStoresThreeDigits : Obligations.BcdStoresThreeDigits := by
  refine ⟨rowDecodes_X 0xF 0x33 (fun _ => rfl) (fun _ => rfl), fun x s =>
    ⟨fun hbad => exec_access_of_gt (n := 2) rfl (by omega), fun hok => ?_⟩⟩
  refine ⟨s.storeAtI (bcdDigits (s.readV x)), exec_access_of_le (n := 2) rfl (by omega), fun hwf => ?_, rfl,
    Frame.refl.storeAtI rfl⟩
  have hdigit {k : Nat} (hk : k < 3) := read_storeAtI (l := bcdDigits (s.readV x)) hwf (Nat.add_le_add_right hok 3) hk
  have hhundreds := hdigit (k := 0) (by decide)
  rw [Nat.add_zero] at hhundreds
  rw [hhundreds, hdigit (k := 1) (by decide), hdigit (k := 2) (by decide)]
  exact ⟨BitVec.toNat_udiv, by simp [bcdDigits], BitVec.toNat_umod⟩

/-! ### The variant's increment of I -/

/-- I ends just past the block on CHIP8, without wrapping, and stays on SCHIP (R204, R205). -/
theorem toNat_bumpI_I {s : State} {x : Nibble} (h : s.I.toNat + x.toNat ≤ 0xFFF) :
    (s.bumpI x).I.toNat = if s.cfg.variant = .chip8 then s.I.toNat + x.toNat + 1 else s.I.toNat := by
  unfold State.bumpI
  split
  · next hv =>
    rw [if_pos hv, State.setI_I]
    bv_omega
  · next hv => rw [if_neg (by simp [hv])]

/-- Settles O36: byte `k` of the block is the `k`-th of the stored registers, and the increment of I leaves memory alone. -/
theorem storeRegistersFromI : Obligations.StoreRegistersFromI := by
  refine ⟨rowDecodes_X 0xF 0x55 (fun _ => rfl) (fun _ => rfl), fun x s =>
    ⟨fun hbad => exec_access_of_gt rfl hbad, fun hok => ?_⟩⟩
  have hlen := State.length_regsUpTo x s
  refine ⟨(s.storeAtI (s.regsUpTo x)).bumpI x, exec_access_of_le rfl hok, fun hwf k hk => ?_, toNat_bumpI_I hok,
    State.bumpI_pc x _, (Frame.refl.storeAtI (by rw [hlen])).bumpI (fun _ => rfl) x⟩
  rw [State.bumpI_mem, read_storeAtI hwf (by omega) (by omega), State.getD_regsUpTo x s hk]

/-! ### A block load -/

/-- After a block load a register below `count` holds its byte, and any other what it held. -/
theorem readV_setV_loadRegs (m : Memory) (base count : Nat) (s : State) (r : Nibble) :
    (s.setV (State.loadRegs m base count s.V)).readV r = if r.toNat < count then m.read (base + r.toNat) else s.readV r :=
  State.getElem_loadRegs m base count s.V r.toNat r.isLt

/-- Settles O37: the block load reaches the registers through X alone, and the increment of I leaves registers alone. -/
theorem loadRegistersFromI : Obligations.LoadRegistersFromI := by
  refine ⟨rowDecodes_X 0xF 0x65 (fun _ => rfl) (fun _ => rfl), fun x s =>
    ⟨fun hbad => exec_access_of_gt rfl hbad, fun hok => ?_⟩⟩
  refine ⟨_, exec_access_of_le rfl hok, fun k hk => ?_, fun r hr => ?_, toNat_bumpI_I hok, State.bumpI_pc x _,
    (Frame.refl.setV_loadRegs fun _ hr => mem_regsThrough hr).bumpI (fun _ => rfl) x⟩
  · have hk16 : (BitVec.ofNat 4 k).toNat = k := by rw [BitVec.toNat_ofNat]; omega
    rw [State.bumpI_readV, readV_setV_loadRegs, hk16, if_pos (by omega)]
  · rw [State.bumpI_readV, readV_setV_loadRegs, if_neg (by omega)]

end Sys2Proof.Machine
end

section
/-! PROOFS for 45_timers_and_keys.md: the timer moves (R230-R232) and the key wait (R233, R234). FX0A has three outcomes: it
waits, it latches a key, or it completes. The first two rewind the fetch's advance, so a waiting step changes nothing but the
sampled inputs, the queue and `step_drew`, and any number of them leaves the engine at the same FX0A. -/

namespace Sys2Proof.Machine

/-! ### Timers -/

/-- Settles O39: each of the three is one write, of a register, DT or ST. -/
theorem timerReadsAndWrites : Obligations.TimerReadsAndWrites :=
  ⟨rowDecodes_X 0xF 0x07 (fun _ => rfl) (fun _ => rfl), rowDecodes_X 0xF 0x15 (fun _ => rfl) (fun _ => rfl),
    rowDecodes_X 0xF 0x18 (fun _ => rfl) (fun _ => rfl), fun _ s => ⟨exec_writesOne rfl,
      ⟨_, rfl, State.setDT_DT _ s, State.setDT_pc _ s, Frame.refl.setDT rfl _⟩,
      ⟨_, rfl, State.setST_ST _ s, State.setST_pc _ s, Frame.refl.setST rfl _⟩⟩⟩

/-- A tick's count is one lower, and 0 stays 0 (R262). -/
theorem toNat_countDown (t : Byte) : (countDown t).toNat = t.toNat - 1 := by
  unfold countDown
  split
  · next hzero => rw [hzero]; rfl
  · next hpos => bv_omega

/-! ### Keys -/

/-- The latched index keeps its value in a register (R233). -/
theorem toNat_zextKey (k : Nibble) : (zextKey k).toNat = k.toNat := by
  simp only [zextKey, BitVec.toNat_setWidth]; omega

/-- A pressed key with none pressed below it is the smallest pressed key. -/
theorem lowestPressed_of_smallest {key : Word} {k : Nibble} (hk : key.getLsbD k.toNat = true)
    (hbelow : ∀ j < k.toNat, key.getLsbD j = false) : lowestPressed key = some k := by
  obtain ⟨j, hj⟩ := lowestPressed_isSome hk
  obtain ⟨hpressed, hlowest⟩ := lowestPressed_eq_some hj
  have hge : k.toNat ≤ j.toNat := Nat.le_of_not_lt fun hlt => by simp [hbelow _ hlt] at hpressed
  have hle : j.toNat ≤ k.toNat := Nat.le_of_not_lt fun hlt => by simp [hlowest _ hlt] at hk
  rw [hj, BitVec.eq_of_toNat_eq (hle.antisymm hge)]

/-- A vector with one key pressed. -/
theorem lowestPressed_twoPow (k : Nibble) : lowestPressed (BitVec.twoPow 16 k.toNat) = some k := by
  refine lowestPressed_of_smallest ?_ fun j hj => ?_
  · simpa [BitVec.getLsbD_twoPow] using k.isLt
  · simp [BitVec.getLsbD_twoPow, hj.ne']

/-! ### The outcomes of FX0A (R233) -/

/-- FX0A has nothing to do yet: no key is latched and none is pressed, or the latched key is held. -/
def State.KeyWaits (s : State) : Prop :=
  s.kwActive = false ∧ lowestPressed s.key = none ∨ s.kwActive = true ∧ s.key.getLsbD s.kwKey.toNat = true

section
variable {s : State} (x : Nibble)

theorem exec_opFX0A_of_waits (h : s.KeyWaits) : exec (.opFX0A x) s = .next s.rewind := by
  change execFX0A x s = _
  obtain ⟨hfree, hnone⟩ | ⟨hlatched, hheld⟩ := h
  · simp [execFX0A, State.seekKey, hfree, hnone]
  · simp [execFX0A, State.awaitRelease, State.latchedKeyHeld, hlatched, hheld]

theorem exec_opFX0A_of_pressed {k : Nibble} (hfree : s.kwActive = false) (hk : lowestPressed s.key = some k) :
    exec (.opFX0A x) s = .next (s.latchKey k).rewind := by
  change execFX0A x s = _
  simp [execFX0A, State.seekKey, hfree, hk]

theorem exec_opFX0A_of_released (hlatched : s.kwActive = true) (hup : s.key.getLsbD s.kwKey.toNat = false) :
    exec (.opFX0A x) s = .next (s.writeV x (zextKey s.kwKey)).releaseLatch := by
  change execFX0A x s = _
  simp [execFX0A, State.awaitRelease, State.latchedKeyHeld, hlatched, hup]

end

/-- Settles O40: with no key pressed or the latched key held FX0A waits, and otherwise it latches the smallest or completes. -/
theorem keyWaitLatchesThenReleases : Obligations.KeyWaitLatchesThenReleases := by
  refine ⟨rowDecodes_X 0xF 0x0A (fun _ => rfl) (fun _ => rfl), fun x s => ⟨fun hfree hnone => ?_,
    fun k hk hfree hpressed hbelow => ?_, fun hlatched hheld => ?_, fun hlatched hup => ?_⟩⟩
  · exact ⟨_, exec_opFX0A_of_waits x (.inl ⟨hfree, (lowestPressed_eq_none_iff _).2 hnone⟩), rfl, Frame.refl.setPc _⟩
  · have hk16 : (BitVec.ofNat 4 k).toNat = k := by rw [BitVec.toNat_ofNat]; omega
    have hlowest : lowestPressed s.key = some (BitVec.ofNat 4 k) :=
      lowestPressed_of_smallest (by rwa [hk16]) (by rwa [hk16])
    exact ⟨_, exec_opFX0A_of_pressed x hfree hlowest, rfl, rfl, hk16, (Frame.refl.latchKey rfl _).setPc _⟩
  · exact ⟨_, exec_opFX0A_of_waits x (.inr ⟨hlatched, hheld⟩), rfl, Frame.refl.setPc _⟩
  · refine ⟨_, exec_opFX0A_of_released x hlatched hup, rfl, ?_, rfl, rfl, (Frame.refl.writeV (by simp) _).releaseLatch rfl⟩
    rw [State.releaseLatch_readV, State.readV_writeV_self, toNat_zextKey]

/-! ### Steps at an FX0A (R234) -/

/-- Re-execution takes back the fetch's advance (R73, R233). -/
theorem State.rewind_advance (s : State) : s.advance.rewind = s := by
  rw [advance_eq, rewind_eq, setPc_pc, BitVec.add_sub_cancel]
  rfl

/-- The engine is about to run FX0A (R72, R74). -/
structure State.AtKeyWait (x : Nibble) (s : State) : Prop where
  running : s.runState = .running
  pc_le : s.pc.toNat ≤ 0xFFD
  decodes : decodeWord s.fetchWord = .opFX0A x

/-- What a step request in Running makes of the state before its fetch: the inputs are sampled, `step_drew` is 0, and the rest
of the queue waits (R72). -/
def State.stepBegun (key : Word) (rnd : Byte) (rest : List Request) (s : State) : State :=
  ((s.setInbox rest).sample key rnd).clearStepDrew

section
variable {s : State} {x : Nibble} {key : Word} {rnd : Byte} {rest : List Request} (hat : s.AtKeyWait x)
  (hin : s.inbox = .step key rnd :: rest)
include hat hin

theorem step_opFX0A : step s = exec (.opFX0A x) (s.stepBegun key rnd rest).advance := by
  rw [step_running_of_ok hin hat.running hat.pc_le, hat.decodes]
  rfl

/-- A waiting step does nothing after its beginning. -/
theorem step_opFX0A_of_waits (h : (s.stepBegun key rnd rest).KeyWaits) : step s = .next (s.stepBegun key rnd rest) := by
  have hadv : (s.stepBegun key rnd rest).advance.KeyWaits := h
  rw [step_opFX0A hat hin, exec_opFX0A_of_waits x hadv, State.rewind_advance]

/-- A step that latches a key leaves pc at the FX0A. -/
theorem step_opFX0A_of_pressed {k : Nibble} (hfree : s.kwActive = false) (hk : lowestPressed key = some k) :
    step s = .next ((s.stepBegun key rnd rest).latchKey k) := by
  rw [step_opFX0A hat hin, exec_opFX0A_of_pressed (s := (s.stepBegun key rnd rest).advance) x hfree hk]
  exact congrArg Host.Outcome.next (State.rewind_advance ((s.stepBegun key rnd rest).latchKey k))

/-- A step with the latched key up goes past the FX0A. -/
theorem step_opFX0A_of_released (hlatched : s.kwActive = true) (hup : key.getLsbD s.kwKey.toNat = false) :
    step s = .next ((s.stepBegun key rnd rest).advance.writeV x (zextKey s.kwKey)).releaseLatch := by
  rw [step_opFX0A hat hin]
  exact exec_opFX0A_of_released x hlatched hup

end

/-! ### A tick in Running -/

/-- Both timers one lower, and the sound output that goes with them (R262, R264). -/
def State.countedDown (s : State) : State :=
  { s with DT := countDown s.DT, ST := countDown s.ST, shouldPlaySound := decide (countDown s.ST ≠ 0) }

theorem step_tick_of_running {s : State} {rest : List Request} (hin : s.inbox = .tick :: rest)
    (hrun : s.runState = .running) : step s = .next (s.setInbox rest).countedDown := by
  have hlive : (s.setInbox rest).runState ≠ .quit := by simp [hrun]
  rw [step_of_cons hin, serve, tick_live hlive]
  rfl

/-! ### Runs -/

theorem run_succ_of_next {M : Host.Core} {s t : M.State} (h : M.step s = .next t) (n : Nat) :
    M.run (n + 1) s = M.run n t := by
  rw [Host.Core.run, h]

theorem run_core_succ_of_next {s t : State} (h : step s = .next t) (n : Nat) :
    Host.Core.run core (n + 1) s = Host.Core.run core n t :=
  run_succ_of_next (M := core) (s := s) (t := t) h n

/-- Settles O41: every step of the run is a waiting one, and it leaves the engine at the same FX0A with the same latch. -/
theorem keyWaitHangsWithoutInput : Obligations.KeyWaitHangsWithoutInput := by
  intro inputs x
  induction inputs with
  | nil => exact fun s _ hrun _ _ _ => ⟨s, rfl, rfl, rfl, rfl, rfl, rfl, hrun⟩
  | cons p inputs ih =>
    intro s hin hrun hpc hdec hkeys
    simp only [List.forall_mem_cons] at hkeys
    have hwaits : (s.stepBegun p.1 p.2 (inputs.map fun p => .step p.1 p.2)).KeyWaits := by
      obtain ⟨hfree, hnone, -⟩ | ⟨hlatched, hheld, -⟩ := hkeys
      · exact .inl ⟨hfree, (lowestPressed_eq_none_iff _).2 fun k _ => hnone ▸ BitVec.getLsbD_zero⟩
      · exact .inr ⟨hlatched, hheld⟩
    have hstep := step_opFX0A_of_waits ⟨hrun, hpc, hdec⟩ hin hwaits
    rw [List.length_cons, run_core_succ_of_next hstep]
    exact ih _ rfl hrun hpc hdec (hkeys.imp (And.imp_right And.right) (And.imp_right And.right))

/-- With a key latched, a tick and then a step that samples no key complete the FX0A (R233, R262). -/
theorem run_tick_release {s : State} {x : Nibble} {rnd : Byte} (hat : s.AtKeyWait x) (hlatched : s.kwActive = true)
    (hin : s.inbox = [.tick, .step 0 rnd]) :
    ∃ t : State, Host.Core.run core 2 s = .next t ∧ (t.readV x).toNat = s.kwKey.toNat ∧ t.kwActive = false ∧
      t.pc = s.pc + 2 ∧ t.DT.toNat = s.DT.toNat - 1 ∧ t.ST.toNat = s.ST.toNat - 1 := by
  have htick := step_tick_of_running hin hat.running
  have hat' : (s.setInbox [.step 0 rnd]).countedDown.AtKeyWait x := ⟨hat.running, hat.pc_le, hat.decodes⟩
  have hrelease := step_opFX0A_of_released hat' rfl hlatched BitVec.getLsbD_zero
  rw [run_core_succ_of_next htick, run_core_succ_of_next hrelease]
  refine ⟨_, rfl, ?_, rfl, rfl, toNat_countDown s.DT, toNat_countDown s.ST⟩
  rw [State.releaseLatch_readV, State.readV_writeV_self, toNat_zextKey]
  rfl

/-- Settles O42: the first step latches k and leaves the engine at the same FX0A, from where the tick and the release
complete it. -/
theorem keyWaitCompletesAfterRelease : Obligations.KeyWaitCompletesAfterRelease := by
  intro x k r1 r2 s hin hrun hfree hpc hdec
  have hpress := step_opFX0A_of_pressed ⟨hrun, hpc, hdec⟩ hin hfree (lowestPressed_twoPow k)
  rw [run_core_succ_of_next hpress]
  exact run_tick_release ⟨hrun, hpc, hdec⟩ rfl rfl

end Sys2Proof.Machine
end

section
/-! PROOFS for 60_exceptions.md: the host's requests (R259-R264, R269), the fault table and the fault entry (R251, R252), and
what stays so in Quit (R254). An instruction answers by its row of R251's table: the row's fault where the condition holds,
else a state within the instruction's footprint. -/

namespace Sys2Proof.Machine

/-! ### The host's requests -/

section
variable {s : State} {rest : List Request}

theorem step_tick_of_quit (hin : s.inbox = .tick :: rest) (hquit : s.runState = .quit) :
    step s = .next (s.setInbox rest) := by
  rw [step_of_cons hin, serve, tick_quit (s := s.setInbox rest) hquit]

theorem step_tick_of_live (hin : s.inbox = .tick :: rest) (hlive : s.runState ≠ .quit) :
    step s = .next (s.setInbox rest).countedDown := by
  rw [step_of_cons hin, serve, tick_live (s := s.setInbox rest) hlive]
  rfl

/-- A tick's sound output is on exactly while the new `ST` is above 0 (R264). -/
theorem countedDown_shouldPlaySound_iff : s.countedDown.shouldPlaySound = true ↔ 0 < s.countedDown.ST.toNat := by
  have hpos : countDown s.ST ≠ 0 ↔ 0 < (countDown s.ST).toNat := by
    rw [Nat.pos_iff_ne_zero, not_iff_not]
    exact BitVec.toNat_inj.symm
  exact decide_eq_true_iff.trans hpos

/-- Running and Paused go to any state the host asks for, their own included (R259; log 14). -/
theorem changeRunState_of_live (hlive : s.runState ≠ .quit) (wanted : RunState) :
    s.changeRunState wanted = .next { s with runState := wanted } := by
  rw [State.changeRunState, if_neg hlive]
  split
  · next hsame => rw [← hsame]
  · rfl

theorem changeRunState_of_same {wanted : RunState} (hsame : s.runState = wanted) : s.changeRunState wanted = .next s :=
  if_pos hsame

/-- Quit is left by no request for another run state (R259). -/
theorem changeRunState_of_quit {wanted : RunState} (hquit : s.runState = .quit) (hleave : wanted ≠ .quit) :
    s.changeRunState wanted = .refused .quitIsFinal := by
  rw [State.changeRunState, if_neg fun hsame => hleave (hsame.symm.trans hquit), if_pos hquit]

theorem step_clearDraw (hin : s.inbox = .hostClearDraw :: rest) :
    step s = .next { s with inbox := rest, drawNeeded := false } := step_of_cons hin

theorem step_unattended_of_stopped (hin : s.inbox = []) (hstop : s.runState ≠ .running) :
    step s = .next { s with stepDrew := false } := (step_of_nil hin).trans (unattendedStep_stopped hstop)

end

/-- Settles O47: the tick in Quit is the identity, else it counts both timers down. -/
theorem tickCountsDown : Obligations.TickCountsDown := fun s _ hin =>
  ⟨step_tick_of_quit hin, fun hlive =>
    ⟨_, step_tick_of_live hin hlive, toNat_countDown s.DT, toNat_countDown s.ST, countedDown_shouldPlaySound_iff, rfl⟩⟩

/-- Settles O48: outside Running both forms of the step request only clear `step_drew`. -/
theorem stoppedEngineIgnoresSteps : Obligations.StoppedEngineIgnoresSteps := fun _ hstop =>
  ⟨fun _ _ _ hin => step_stopped hin hstop, fun hin => step_unattended_of_stopped hin hstop⟩

/-- Settles O49: the three answers to a request for a run state. -/
theorem hostChangesRunState : Obligations.HostChangesRunState := fun s wanted rest hin =>
  ⟨fun hlive => (step_of_cons hin).trans (changeRunState_of_live (s := s.setInbox rest) hlive wanted),
    fun hquit hleave => (step_of_cons hin).trans (changeRunState_of_quit (s := s.setInbox rest) hquit hleave),
    fun hquit hsame => (step_of_cons hin).trans (changeRunState_of_same (s := s.setInbox rest) (hquit.trans hsame.symm))⟩

/-! ### The fault table (R251) -/

/-- A row of R251's table that raises: its condition holds, and the cause is the row's. -/
theorem of_ite_eq_some {p : Prop} [Decidable p] {cause c : FaultCause} (h : (if p then some cause else none) = some c) :
    p ∧ cause = c := by
  obtain ⟨hp, hc⟩ := Option.ite_none_right_eq_some.1 h
  exact ⟨hp, Option.some.inj hc⟩

/-- A byte of the run above 0xFFF breaks the bounds rule (R55). -/
theorem outOfBounds_eq_true {s : State} {count : Nat} (h : ∃ k < count, 0xFFF < s.I.toNat + k) :
    s.outOfBounds count = true := by
  obtain ⟨k, hk, htop⟩ := h
  exact (State.outOfBounds_iff count s).2 (by omega)

section
variable {i : Instr} {s : State}

/-- An instruction whose row's condition holds takes the fault entry with the row's cause, which is never NONE. -/
theorem exec_of_faultOf_eq_some {c : FaultCause} (h : faultOf i s = some c) :
    exec i s = .next (s.raise c) ∧ c ≠ .none := by
  cases i with
  | op00EE u =>
    obtain ⟨hempty, rfl⟩ := of_ite_eq_some h
    exact ⟨exec_op00EE_of_empty u hempty, by decide⟩
  | op2NNN nnn =>
    obtain ⟨hfull, rfl⟩ := of_ite_eq_some h
    exact ⟨exec_op2NNN_of_full nnn hfull, by decide⟩
  | opEX9E | opEXA1 =>
    obtain ⟨hkey, rfl⟩ := of_ite_eq_some h
    exact ⟨exec_keySkip_of_gt rfl hkey, by decide⟩
  | opFX33 x =>
    obtain ⟨htop, rfl⟩ := of_ite_eq_some h
    exact ⟨exec_access_of_gt rfl htop, by decide⟩
  | opDXYN | opFX55 | opFX65 =>
    obtain ⟨hbyte, rfl⟩ := of_ite_eq_some h
    exact ⟨raiseIf_of_bad (outOfBounds_eq_true hbyte) _ _ _, by decide⟩
  | op00E0 | op1NNN | op3XNN | op4XNN | op5XY0 | op6XNN | op7XNN | op8XY0 | op8XY1 | op8XY2 | op8XY3 | op8XY4 | op8XY5
    | op8XY6 | op8XY7 | op8XYE | op9XY0 | opANNN | opBNNN | opCXNN | opFX07 | opFX0A | opFX15 | opFX18 | opFX1E | opFX29
    | nop => cases h

/-- What an instruction answers, by its row of R251's table: the row's fault, or a state within its footprint. -/
theorem exec_next_cases {t : State} (h : exec i s = .next t) :
    (∃ c, t = s.raise c ∧ c ≠ .none) ∨ Frame (footprint i s) s t := by
  cases hrow : faultOf i s with
  | some c =>
    obtain ⟨hraise, hc⟩ := exec_of_faultOf_eq_some hrow
    exact .inl ⟨c, Host.Outcome.next.inj (h.symm.trans hraise), hc⟩
  | none =>
    obtain ⟨t', ht', hframe⟩ := exec_staysIn i s hrow
    obtain rfl : t' = t := Host.Outcome.next.inj (ht'.symm.trans h)
    exact .inr hframe

theorem Frame.runState_faultCause {c : MayChange} {t : State} (h : Frame c s t) :
    t.runState = s.runState ∧ t.faultCause = s.faultCause := by
  obtain ⟨-, -, -, -, -, -, -, -, hrun, hcause, -⟩ := h
  exact ⟨hrun, hcause⟩

theorem Frame.drawNeeded_eq {c : MayChange} {t : State} (h : Frame c s t) (hc : c.display = false) :
    t.drawNeeded = s.drawNeeded := by
  obtain ⟨-, -, -, -, -, -, hdisp, -⟩ := h
  exact (hdisp hc).2.1

/-- Only 00E0 and DXYN may change the display and its two marks (R100, R101). -/
theorem eq_of_footprint_display (h : (footprint i s).display = true) :
    (∃ u, i = .op00E0 u) ∨ ∃ x y n, i = .opDXYN x y n := by
  cases i with
  | op00E0 u => exact .inl ⟨u, rfl⟩
  | opDXYN x y n => exact .inr ⟨x, y, n, rfl⟩
  | _ => cases h

/-- The two instructions that mark the display set `draw_needed`, or fault and leave it (R37, R101). -/
theorem exec_display_keeps_drawNeeded {t : State} (hdisp : (footprint i s).display = true) (h : exec i s = .next t)
    (hneeded : s.drawNeeded = true) : t.drawNeeded = true := by
  obtain ⟨u, rfl⟩ | ⟨x, y, n, rfl⟩ := eq_of_footprint_display hdisp
  · cases h; rfl
  · obtain ⟨-, rfl⟩ | ⟨-, rfl⟩ := raiseIf_next h
    · exact hneeded
    · rfl

end

/-- Settles O12: the row's fault or the footprint's frame; the check of pc is the fault of the fetch (R74). -/
theorem faultTableIsComplete : Obligations.FaultTableIsComplete := by
  refine ⟨fun i s => ⟨fun c hrow => ?_, fun hrow => ?_⟩, fun s key rnd rest hin hrun hpc => ?_, rfl, rfl, rfl, rfl, rfl, rfl⟩
  · obtain ⟨hraise, hc⟩ := exec_of_faultOf_eq_some hrow
    exact ⟨hraise, hc, rfl⟩
  · obtain ⟨t, ht, hframe⟩ := exec_staysIn i s hrow
    exact ⟨t, ht, hframe.runState_faultCause⟩
  · exact ⟨_, step_running_of_bad hin hrun (by omega), rfl, rfl⟩

/-- Settles O50: outside the display's two instructions the footprint keeps `draw_needed`, and those two set it. -/
theorem onlyTheHostClearsDrawNeeded : Obligations.OnlyTheHostClearsDrawNeeded := by
  refine ⟨fun s rest hin => step_clearDraw hin, fun i s t h hneeded => ?_⟩
  cases hdisp : (footprint i s).display with
  | true => exact exec_display_keeps_drawNeeded hdisp h hneeded
  | false =>
    obtain ⟨c, rfl, -⟩ | hframe := exec_next_cases h
    · exact hneeded
    · exact (hframe.drawNeeded_eq hdisp).trans hneeded

/-! ### The fault entry (R252) -/

/-- Settles O11: the check of pc raises, or the instruction does; one that completes is still in Running. -/
theorem faultEntryIsPrecise : Obligations.FaultEntryIsPrecise := by
  intro s t key rnd rest hin hrun hstep hleft
  by_cases hpc : s.pc.toNat ≤ 0xFFD
  · obtain ⟨c, rfl, hc⟩ | hframe := exec_next_cases ((step_running_of_ok hin hrun hpc).symm.trans hstep)
    · exact ⟨hc, rfl, rfl, rfl, rfl⟩
    · exact absurd (hframe.runState_faultCause.1.trans hrun) hleft
  · cases (step_running_of_bad hin hrun (by omega)).symm.trans hstep
    exact ⟨FaultCause.noConfusion, rfl, rfl, rfl, rfl⟩

/-! ### A recorded fault and Quit (R254) -/

theorem FaultQuits.of_completes {s t : State} (hs : FaultQuits s) (h : Completes s t) : FaultQuits t := fun hc =>
  h.runState.trans (hs (h.faultCause ▸ hc))

/-- A fetch, decode and execute records a fault only together with Quit (R252). -/
theorem runInstruction_faultQuits {s t : State} (h : runInstruction s = .next t) (hs : FaultQuits s) : FaultQuits t := by
  obtain ⟨-, rfl⟩ | ⟨-, hdone | ⟨c, rfl⟩⟩ := runInstruction_cases h
  · exact fun _ => rfl
  · exact FaultQuits.of_completes (s := s.clearStepDrew.advance) hs hdone
  · exact fun _ => rfl

/-- Every step but a restore keeps a recorded fault in Quit; a restore is shut out by the queue. -/
theorem StepsTo.faultQuits {s t : State} (hq : NoRestoreQueued s) (hs : FaultQuits s) (h : StepsTo s t) : FaultQuits t := by
  cases h with
  | ran key rnd draws hrun h => exact runInstruction_faultQuits h hs
  | ticked =>
    by_cases hquit : s.dequeued.runState = .quit
    · rw [tick_quit hquit]; exact hs
    · rw [tick_live hquit]; exact hs
  | changedRunState wanted hquit => exact fun hc => hquit (hs hc)
  | loaded rom hrom => exact fun hc => absurd rfl hc
  | restored p hmem => exact absurd hmem (hq p)
  | stopped | clearedDraw => exact hs

/-- Settles O58: each of a step's seven answers keeps the property. -/
theorem stepKeepsFaultsInQuit : Obligations.StepKeepsFaultsInQuit := fun _ _ hq hs hstep =>
  (step_stepsTo hstep).faultQuits hq hs

/-! ### Quit is final (R254, R259) -/

/-- Everything but the queue's head, `step_drew` and `draw_needed` is as before (R260, R263). -/
def KeepsReadable (s t : State) : Prop :=
  t = { s with inbox := s.inbox.tail, stepDrew := t.stepDrew, drawNeeded := t.drawNeeded }

section
variable {s t : State}

theorem KeepsReadable.runState_faultCause (h : KeepsReadable s t) :
    t.runState = s.runState ∧ t.faultCause = s.faultCause :=
  ⟨(congrArg State.runState h :), (congrArg State.faultCause h :)⟩

theorem keepsReadable_clearStepDrew : KeepsReadable s s.dequeued.clearStepDrew := rfl

theorem keepsReadable_dequeued : KeepsReadable s s.dequeued := rfl

/-- A step in Quit that serves no load keeps what a program can read, or restores a state of Quit with the same cause. -/
theorem step_of_quit (hquit : s.runState = .quit) (hstep : step s = .next t)
    (hload : ∀ rom rest, s.inbox ≠ .hostLoad rom :: rest) :
    KeepsReadable s t ∨
      ∃ p rest, s.inbox = .hostSnapshotWrite p :: rest ∧ t.runState = .quit ∧ t.faultCause = s.faultCause := by
  have hstop : s.runState ≠ .running := by rw [hquit]; decide
  cases hin : s.inbox with
  | nil =>
    have hkeep := keepsReadable_clearStepDrew (s := s)
    rw [State.dequeued_of_nil hin] at hkeep
    cases (step_unattended_of_stopped hin hstop).symm.trans hstep
    exact .inl hkeep
  | cons r rest =>
    rw [step_of_cons hin, ← State.dequeued_of_cons hin] at hstep
    cases r with
    | step key rnd =>
      cases (stepRequest_stopped (s := s.dequeued) hstop key rnd).symm.trans hstep
      exact .inl keepsReadable_clearStepDrew
    | tick =>
      cases hstep
      rw [tick_quit (s := s.dequeued) hquit]
      exact .inl keepsReadable_dequeued
    | hostRunState wanted =>
      have hsame : s.dequeued.runState = wanted := hquit.trans ((changeRunState_next hstep).2 hquit).symm
      cases (changeRunState_of_same hsame).symm.trans hstep
      exact .inl keepsReadable_dequeued
    | hostClearDraw =>
      cases hstep
      exact .inl rfl
    | hostLoad rom => exact absurd hin (hload rom rest)
    | hostSnapshotWrite p =>
      obtain ⟨-, -, hkeeps⟩ := restore_next hstep
      exact .inr ⟨p, rest, rfl, hkeeps hquit⟩

end

/-- Settles O14: a step in Quit that is no load restores a state of Quit, or keeps what a program can read. -/
theorem quitIsFinal : Obligations.QuitIsFinal := by
  intro s t hquit hstep hload
  obtain hkeep | ⟨p, rest, hin, hrun, hcause⟩ := step_of_quit hquit hstep hload
  · obtain ⟨hrun, hcause⟩ := hkeep.runState_faultCause
    exact ⟨hrun.trans hquit, hcause, fun _ => hkeep⟩
  · exact ⟨hrun, hcause, fun hno => absurd hin (hno p rest)⟩

end Sys2Proof.Machine
end

section
/-! PROOFS for 70_reset_and_hazards.md: where the machine has no transition (R291, R296). A step request always has a next
state, so only a load, a restore or a run-state request can be refused; each of the three says once when it is. -/

namespace Sys2Proof.Machine

/-! ### A step request is never refused -/

section
variable (s : State)

/-- Fetch, decode and execute always has a next state: a fault is one too (R252; log 7). -/
theorem runInstruction_exists_next : ∃ t, runInstruction s = .next t := by
  by_cases hpc : s.pc.toNat < 0xFFE
  · obtain ⟨t, ht, -⟩ := exec_completesOrRaises (decodeWord s.fetchWord) s.clearStepDrew.advance
    exact ⟨t, (runInstruction_of_ok hpc).trans ht⟩
  · exact ⟨_, runInstruction_of_bad (Nat.le_of_not_lt hpc)⟩

theorem stepRequest_exists_next (key : Word) (rnd : Byte) : ∃ t, stepRequest key rnd s = .next t := by
  by_cases hrun : s.runState = .running
  · rw [stepRequest_running hrun]
    exact runInstruction_exists_next _
  · exact ⟨_, stepRequest_stopped hrun key rnd⟩

theorem unattendedStep_exists_next : ∃ t, unattendedStep s = .next t := by
  by_cases hrun : s.runState = .running
  · rw [unattendedStep_running hrun]
    exact runInstruction_exists_next _
  · exact ⟨_, unattendedStep_stopped hrun⟩

end

/-! ### The three requests that can be refused -/

section
variable {s : State} {r : Refusal}

/-- A load is refused exactly for a ROM of more than 3584 bytes (R291). -/
theorem load_eq_refused_iff {rom : List Byte} : s.load rom = .refused r ↔ r = .romTooLarge ∧ 3584 < rom.length := by
  by_cases hlong : 3584 < rom.length
  · simp [State.load, hlong, eq_comm (b := r)]
  · simp [load_of_le (Nat.le_of_not_lt hlong), hlong]

/-- A run-state request is refused exactly where it would leave Quit (R259; log 14). -/
theorem changeRunState_eq_refused_iff {wanted : RunState} :
    s.changeRunState wanted = .refused r ↔ r = .quitIsFinal ∧ s.runState = .quit ∧ wanted ≠ .quit := by
  by_cases hquit : s.runState = .quit
  · by_cases hstay : wanted = .quit
    · rw [changeRunState_of_same (hquit.trans hstay.symm)]
      simp [hstay]
    · simp [changeRunState_of_quit hquit hstay, hquit, hstay, eq_comm (b := r)]
  · simp [changeRunState_of_live hquit, hquit]

/-- A restore is refused exactly for a snapshot that is not admissible (R46), or one that Quit forbids (R254, R259; log 12). -/
theorem restore_eq_refused_iff {p : Snapshot} :
    s.restore p = .refused r ↔ (r = .snapshotInvalid ∧ p.admissible = false) ∨
      (r = .quitIsFinal ∧ p.admissible = true ∧ s.quitForbids p = true) := by
  obtain ⟨hbad, hres⟩ | ⟨hadm, hforbid, hres⟩ | ⟨hadm, hallow, hres⟩ := restore_cases p s
  · simp [hres, hbad, eq_comm (b := r)]
  · simp [hres, hadm, hforbid, eq_comm (b := r)]
  · simp [hres, hadm, hallow]

end

/-! ### The refusals of a step -/

/-- Settles O13: there is no fault outcome, and the oldest request decides what, if anything, is refused. -/
theorem stepStopsOnlyOnRejectedRequests : Obligations.StepStopsOnlyOnRejectedRequests := by
  refine fun s => ⟨nofun, fun r => ?_⟩
  cases hin : s.inbox with
  | nil =>
    obtain ⟨t, ht⟩ := unattendedStep_exists_next s
    simp [step_of_nil hin, ht]
  | cons request rest =>
    rw [step_of_cons hin]
    cases request with
    | step key rnd =>
      obtain ⟨t, ht⟩ := stepRequest_exists_next (s.setInbox rest) key rnd
      simp [serve, ht]
    | tick | hostClearDraw => simp [serve]
    | hostRunState wanted => simp [serve, changeRunState_eq_refused_iff]
    | hostLoad rom => simp [serve, load_eq_refused_iff]
    | hostSnapshotWrite p =>
      simp [serve, restore_eq_refused_iff, quitForbids_iff, and_left_comm]

end Sys2Proof.Machine
end
